-- ==== Sys2Proof/Word.lean ====
section
/-! DEFINITION. The words of the block (spec 20_memory.md R56): stream bytes, 16-bit payloads, 32-bit volumes. -/

namespace Sys2Proof

/-- A byte of the stream: a u8 (R10, R56). -/
abbrev Byte := BitVec 8

/-- A frame's payload, a button code, the numerator of AppInc and AppDec: a u16 (R56). -/
abbrev Half := BitVec 16

/-- A raw reading or a volume: a u32 (R6, R56). -/
abbrev Vol := BitVec 32

end Sys2Proof
end

