-- ==== Sys2Proof/Config.lean ====
section
/-! DEFINITION. What a realization fixes (spec 00_scope.md R5 to R8), the hardwired constants (10_state.md R30), the
answers the query port can give (10_state.md R41), and the one free value: an answer of the host. -/

namespace Sys2Proof

/-- EMPTY_POLICY (R8): what the block does when the list of the active mode is empty. -/
inductive EmptyPolicy where
  | recover   -- RECOVER, the default
  | fault     -- FAULT
  deriving DecidableEq, Repr

/-- The build-time parameters of R5, R7 and R8. W_VOL (R6) is fixed at 32 and is the type `Vol`. -/
structure Params where
  /-- W_IDX (R5): the width in bits of INDEX and of the host's list counts. -/
  wIdx : Nat
  /-- RAWBUF_CAP (R7): `none` is unbounded. -/
  rawbufCap : Option Nat
  /-- EMPTY_POLICY (R8). -/
  emptyPolicy : EmptyPolicy
  deriving DecidableEq, Repr

/-- The legal values: W_IDX >= 1 (R5), and RAWBUF_CAP unbounded or >= 5 (R7). -/
def Params.legal (q : Params) : Bool :=
  decide (1 ≤ q.wIdx) && match q.rawbufCap with
    | none => true
    | some cap => decide (5 ≤ cap)

/-- The defaults of R5, R7 and R8. -/
def Params.default : Params := { wIdx := 32, rawbufCap := none, emptyPolicy := .recover }

/-- `Snap(dev, app)` of R41: the average volumes of the output devices and of the application streams, in list order. -/
structure Snapshot where
  dev : List Vol
  app : List Vol
  deriving DecidableEq, Repr

/-- What `Query()` returns (R41). -/
inductive Answer where
  | fail
  | snap (S : Snapshot)
  deriving DecidableEq, Repr, Inhabited

namespace Config

/-- FRAME_LEN (R30): bytes per frame, window length. -/
@[simp] abbrev frameLen : Nat := 5
/-- K_START (R30): frame byte 0. -/
@[simp] abbrev kStart : Byte := 0xFF#8
/-- K_END (R30): frame byte 4, and the byte that triggers a scan. -/
@[simp] abbrev kEnd : Byte := 0xFE#8
/-- KIND_SENSOR (R30). -/
@[simp] abbrev kindSensor : Byte := 0xF0#8
/-- KIND_BUTTONS (R30). -/
@[simp] abbrev kindButtons : Byte := 0xF1#8
/-- BTN_NEXT (R30, R75). -/
@[simp] abbrev btnNext : Half := 0x0001#16
/-- BTN_TOGGLE (R30, R75). -/
@[simp] abbrev btnToggle : Half := 0x0002#16
/-- BTN_PREV (R30, R75). -/
@[simp] abbrev btnPrev : Half := 0x0008#16
/-- SCALE_MUL (R30, R131). -/
@[simp] abbrev scaleMul : Vol := 65535#32
/-- SCALE_DIV (R30, R131). -/
@[simp] abbrev scaleDiv : Vol := 1024#32
/-- APP_DEN (R30): the denominator of percentage. -/
@[simp] abbrev appDen : Nat := 65535
/-- APP_GUARD (R30) is 0.1, in the exact integer form of R138: reject iff `appGuardMul * |d| > appDen`. -/
@[simp] abbrev appGuardMul : Nat := 10
/-- DEV_GUARD (R30, R141). -/
@[simp] abbrev devGuard : Nat := 10000

/-- FREE VALUE (DESIGN CHOICE, safe; notes/assumptions/2.md). The answer of the host to the n-th `Query()` of a run whose
script of answers is used up: the host may return anything (R65, I9), so nothing about this value can be proved. -/
opaque freeAnswer : Nat → Answer

end Config

end Sys2Proof
end

