-- ==== Sys2Proof/Syntax.lean ====
section
/-! DEFINITION. The instructions: one constructor per row of spec/opcode_table.json (30_encoding.md section 5). -/

namespace Sys2Proof

/-- The two stream-byte operations (R82) and the six kinds of frame (R77). -/
inductive Instr where
  /-- BYTE (R101): a stream byte other than 0xFE. -/
  | byte (b : Byte)
  /-- END (R103): the stream byte 0xFE. -/
  | endByte
  /-- SENSOR (R130): a frame of kind 0xF0 with its payload. -/
  | sensor (p : Half)
  /-- NEXT (R164): the Buttons frame of code 0x0001. -/
  | next
  /-- TOGGLE (R163): the Buttons frame of code 0x0002. -/
  | toggle
  /-- PREV (R165): the Buttons frame of code 0x0008. -/
  | prev
  /-- BTN_OTHER (R161): a Buttons frame of any other code. -/
  | btnOther (c : Half)
  /-- KIND_OTHER (R78, R107): a structural match of any other kind, with its (ignored) payload. -/
  | kindOther (k : Byte) (p : Half)
  deriving DecidableEq, Repr

end Sys2Proof
end

