-- ==== Sys2Proof/WellFormed.lean ====
section
/-! DEFINITION. Which instructions are well formed: those the encoding tables of 30_encoding.md can yield. -/

namespace Sys2Proof

open Config

/-- A BYTE is never 0xFE (R82), a BTN_OTHER code is none of the three codes with a transition (R75), and a KIND_OTHER
kind is neither 0xF0 nor 0xF1 (R77, R78). The other rows take every operand. -/
def Instr.wellFormed : Instr → Bool
  | .byte b => b ≠ kEnd
  | .endByte => true
  | .sensor _ => true
  | .next => true
  | .toggle => true
  | .prev => true
  | .btnOther c => c ≠ btnNext ∧ c ≠ btnToggle ∧ c ≠ btnPrev
  | .kindOther k _ => k ≠ kindSensor ∧ k ≠ kindButtons

end Sys2Proof
end

