-- ==== Sys2Proof/Decode.lean ====
section
/-! DEFINITION. Decoding of stream bytes and 5-byte windows (30_encoding.md R70 to R82), the encoder, and the opcode
table's own numbering of a frame's bits (R71). -/

namespace Sys2Proof

open Config

/-- Why bytes are no instruction. -/
inductive DecodeError where
  /-- Neither 1 byte (stream-byte) nor 5 bytes (frame40): R70 has no other length. -/
  | badLength
  /-- Five bytes that are not a structural match (R72, R77 line 1). -/
  | notAFrame
  deriving DecidableEq, Repr

/-- `payload = {payload_hi, payload_lo} = payload_hi * 256 + payload_lo`, big-endian (R52, R74). -/
def payload (hi lo : Byte) : Half := BitVec.ofNat 16 (hi.toNat * 256 + lo.toNat)

/-- payload_hi, the bits [15:8] of a payload (R71). -/
def payloadHi (p : Half) : Byte := p.extractLsb' 8 8

/-- payload_lo, the bits [7:0] of a payload (R71). -/
def payloadLo (p : Half) : Byte := p.extractLsb' 0 8

/-- The class of a stream byte (R82). -/
def decodeStream (b : Byte) : Instr := if b = kEnd then .endByte else .byte b

/-- The instruction of a Buttons frame with code c (R75, R77 line 3): the whole u16 is compared. -/
def decodeButton (c : Half) : Instr :=
  if c = btnNext then .next
  else if c = btnToggle then .toggle
  else if c = btnPrev then .prev
  else .btnOther c

/-- The instruction of a window (R77), its first line that applies. -/
def decodeFrame (b0 b1 b2 b3 b4 : Byte) : Except DecodeError Instr :=
  if b0 ≠ kStart ∨ b4 ≠ kEnd then .error .notAFrame
  else if b1 = kindSensor then .ok (.sensor (payload b2 b3))
  else if b1 = kindButtons then .ok (decodeButton (payload b2 b3))
  else .ok (.kindOther b1 (payload b2 b3))

/-- The decoder: one byte is a stream byte, five bytes are a window (R70). -/
def decode : List Byte → Except DecodeError Instr
  | [b] => .ok (decodeStream b)
  | [b0, b1, b2, b3, b4] => decodeFrame b0 b1 b2 b3 b4
  | _ => .error .badLength

/-- `FRAME k, p` of the assembler notation (R83): the five bytes of a frame. -/
def frameBytes (k : Byte) (p : Half) : List Byte := [kStart, k, payloadHi p, payloadLo p, kEnd]

/-- The encoder (R71, R83, R84). -/
def encode : Instr → List Byte
  | .byte b => [b]
  | .endByte => [kEnd]
  | .sensor p => frameBytes kindSensor p
  | .next => frameBytes kindButtons btnNext
  | .toggle => frameBytes kindButtons btnToggle
  | .prev => frameBytes kindButtons btnPrev
  | .btnOther c => frameBytes kindButtons c
  | .kindOther k p => frameBytes k p

/-- Is the instruction a frame (format frame40), not a stream byte (R70)? -/
def Instr.isFrame : Instr → Bool
  | .byte _ => false
  | .endByte => false
  | .sensor _ => true
  | .next => true
  | .toggle => true
  | .prev => true
  | .btnOther _ => true
  | .kindOther _ _ => true

/-- Is the instruction a recognized match, a hit (R77, R78, R79)? -/
def Instr.isHit : Instr → Bool
  | .byte _ => false
  | .endByte => false
  | .sensor _ => true
  | .next => true
  | .toggle => true
  | .prev => true
  | .btnOther _ => true
  | .kindOther _ _ => false

/-- The row of spec/opcode_table.json, by its mnemonic. -/
def Instr.mnemonic : Instr → String
  | .byte _ => "BYTE"
  | .endByte => "END"
  | .sensor _ => "SENSOR"
  | .next => "NEXT"
  | .toggle => "TOGGLE"
  | .prev => "PREV"
  | .btnOther _ => "BTN_OTHER"
  | .kindOther _ _ => "KIND_OTHER"

/-- A frame as the 40-bit word F of R71, byte offset 0 in bits [39:32], cut back into its bytes in the order in which they
arrive (R53). -/
def wordBytes (F : BitVec 40) : List Byte :=
  [F.extractLsb' 32 8, F.extractLsb' 24 8, F.extractLsb' 16 8, F.extractLsb' 8 8, F.extractLsb' 0 8]

/-- One row of the summary table of 30_encoding.md section 5: the word F is of the row where `F &&& mask = pattern`. -/
structure TableRow where
  mnemonic : String
  pattern : BitVec 40
  mask : BitVec 40
  deriving DecidableEq, Repr

/-- The frame40 rows of 30_encoding.md section 5, in its order. -/
def frameRows : List TableRow :=
  [ ⟨"SENSOR", 0xFFF00000FE, 0xFFFF0000FF⟩,
    ⟨"NEXT", 0xFFF10001FE, 0xFFFFFFFFFF⟩,
    ⟨"TOGGLE", 0xFFF10002FE, 0xFFFFFFFFFF⟩,
    ⟨"PREV", 0xFFF10008FE, 0xFFFFFFFFFF⟩,
    ⟨"BTN_OTHER", 0xFFF10000FE, 0xFFFF0000FF⟩,
    ⟨"KIND_OTHER", 0xFF000000FE, 0xFF000000FF⟩ ]

/-- The first row that matches: BTN_OTHER and KIND_OTHER match only where no earlier line does (30_encoding.md section 5). -/
def firstRow (F : BitVec 40) : Option String :=
  (frameRows.find? fun r => F &&& r.mask = r.pattern).map (·.mnemonic)

/-- The bytes of a table row's word, in the order of the stream (DEDUCED; notes/assumptions/10.md): a row of at most 8 bits
is one stream byte, a longer one is the word F of R71. There is no row over 40 bits. -/
def tableBytes (nbits w : Nat) : List Byte :=
  if nbits ≤ 8 then [BitVec.ofNat 8 w]
  else if nbits ≤ 40 then wordBytes (BitVec.ofNat 40 w)
  else []

/-- What the decoder reads from a table row's word. -/
def decodeTableWord (nbits w : Nat) : Option Instr :=
  match decode (tableBytes nbits w) with
  | .ok i => some i
  | .error _ => none

end Sys2Proof
end

