-- ==== Sys2Proof/Machine/State.lean ====
section
/-! DEFINITION. The machine's state: the five registers of the block (10_state.md R20), and the model's own fields for the
ports (R40 to R43) and the build-time parameters (R5 to R8). -/

namespace Sys2Proof.Machine

open Sys2Proof

/-- MODE (R22): the target class, a 1-bit register. -/
inductive Mode where
  | device   -- 0, an output device is the target
  | app      -- 1, an application stream is the target
  deriving DecidableEq, Repr

/-- HALT_CAUSE (R25), a 2-bit register. -/
inductive HaltCause where
  | none        -- 0 NONE, HALT = 0
  | transport   -- 1 TRANSPORT (R201)
  | backend     -- 2 BACKEND (R202)
  | empty       -- 3 EMPTY (R203), only under EMPTY_POLICY = FAULT
  deriving DecidableEq, Repr

/-- An event on the input port IN (R40). -/
inductive InEvent where
  | byte (b : Byte)
  | streamError
  | reset
  deriving DecidableEq, Repr

/-- An item on the command port CMD (R42). -/
inductive Command where
  /-- Set every channel of device i to v. -/
  | devSet (i : Nat) (v : Vol)
  /-- Increase application stream i by n / 65535. -/
  | appInc (i : Nat) (n : Half)
  /-- Decrease application stream i by n / 65535. -/
  | appDec (i : Nat) (n : Half)
  deriving DecidableEq, Repr

/-- An item on the event port EVT (R43). -/
inductive Event where
  /-- The jump guard of mode m rejected a sensor update. -/
  | reject (m : Mode) (final current : Vol)
  /-- The list of mode m was empty when an operation needed it. -/
  | empty (m : Mode)
  /-- The block entered the halted state. -/
  | halted (cause : HaltCause)
  deriving DecidableEq, Repr

/-- An item the block emits, on CMD or on EVT. -/
inductive OutItem where
  | cmd (c : Command)
  | evt (e : Event)
  deriving DecidableEq, Repr

/-- The state. `buf`, `mode`, `index`, `halt` and `haltCause` are the block's registers, and there are no others (R20). The
rest is the model's own (notes/assumptions/1.md, 3.md): what the host offers and answers, what the block has emitted, and
the parameters it was built with. -/
structure State where
  /-- BUF (R21): the RawBuffer, oldest byte first. -/
  buf : List Byte
  /-- MODE (R22). -/
  mode : Mode
  /-- INDEX (R23): u(W_IDX), a number below `2 ^ params.wIdx` (notes/assumptions/4.md). -/
  index : Nat
  /-- HALT (R24). -/
  halt : Bool
  /-- HALT_CAUSE (R25). -/
  haltCause : HaltCause
  /-- Port IN (R40): the events the host offers, the next one first. -/
  inEvents : List InEvent
  /-- Port QRY (R41): the host's answers to the coming queries, the next one first. Past its end answers are free values. -/
  answers : List Answer
  /-- How many times `Query()` was called: the counter the free answers are drawn with. -/
  queries : Nat
  /-- Ports CMD and EVT (R42, R43): every item emitted so far, in order (R60). -/
  out : List OutItem
  /-- The build-time parameters (R5, R7, R8); no operation writes them (R31). -/
  params : Params
  deriving DecidableEq, Repr

/-- Why a step answers no next state. -/
inductive Fault where
  /-- Raised by `step` when IN offers no event and the block runs. The block has no step until one arrives: a wait, not an
  error (R40, I10). Safe. -/
  | awaitingInput
  /-- Raised by `step` in the halted state for every event but Reset, and when none is offered: the fault outcome of R207. Safe. -/
  | halted (cause : HaltCause)
  /-- Raised by a query whose answer holds a list of more than 2^W_IDX - 1 entries, which the host must never supply (R5,
  R41); the spec gives no effect. Safe. -/
  | hostListTooLong
  deriving DecidableEq, Repr

/-- Why a step has no meaning. -/
inductive Refusal where
  /-- Raised by an arm of `exec` whose instruction has no meaning yet; there is none. Safe. -/
  | notModelled (mnemonic : String)
  deriving DecidableEq, Repr

/-- The state after reset (R230), with nothing offered, scripted or emitted, and the default parameters. -/
def State.reset : State where
  buf := []
  mode := .device
  index := 0
  halt := false
  haltCause := .none
  inEvents := []
  answers := []
  queries := 0
  out := []
  params := Params.default

end Sys2Proof.Machine
end

