-- ==== Sys2Proof/Machine/Operands.lean ====
section
/-! DEFINITION. Operand forms: the reading of a payload as a sensor value (30_encoding.md R76, 41_volume.md R131), the
reading of a snapshot (10_state.md R41) and the effective index (41_volume.md R135, 42_selection.md R166). -/

namespace Sys2Proof.Machine

open Sys2Proof Config

/-- The other mode, `1 - MODE` (R163). -/
def Mode.other : Mode → Mode
  | .device => .app
  | .app => .device

/-- The list of mode m in a snapshot (R41). -/
def targets (S : Snapshot) : Mode → List Vol
  | .device => S.dev
  | .app => S.app

/-- `count(S, m)` (R12, R41). -/
def count (S : Snapshot) (m : Mode) : Nat := (targets S m).length

/-- `vol(S, m, i)` (R12, R41). Every use has `i < count S m` (R135), so the 0 is never read
(notes/assumptions/13.md). -/
def vol (S : Snapshot) (m : Mode) (i : Nat) : Vol := (targets S m).getD i 0

/-- Each list has at most 2^W_IDX - 1 entries (R5, R41). -/
def snapshotFits (q : Params) (S : Snapshot) : Bool :=
  decide (S.dev.length < 2 ^ q.wIdx) && decide (S.app.length < 2 ^ q.wIdx)

/-- An answer the host may give (R41). -/
def answerFits (q : Params) : Answer → Bool
  | .fail => true
  | .snap S => snapshotFits q S

/-- A snapshot cut to the lengths the query port admits (R5): what a free answer is read through. -/
def clipAnswer (q : Params) : Answer → Answer
  | .fail => .fail
  | .snap S => .snap { dev := S.dev.take (2 ^ q.wIdx - 1), app := S.app.take (2 ^ q.wIdx - 1) }

/-- The effective index `min(INDEX, cnt - 1)` (R135, R166). -/
def clampIndex (index cnt : Nat) : Nat := min index (cnt - 1)

/-- `raw = zext_32(payload)` (R76). -/
def raw (p : Half) : Vol := p.zeroExtend 32

/-- The scaler `final = (65535 * raw) / 1024`, over u32 and truncating (R131). -/
def finalVolume (p : Half) : Vol := (scaleMul * raw p) / scaleDiv

/-- The difference `d = int(final) - int(cur)`, exact and signed (R137). -/
def difference (final cur : Vol) : Int := (final.toNat : Int) - (cur.toNat : Int)

/-- The numerator `|d|` of AppInc and AppDec, carried as a u16 (R42, R139). -/
def numerator (d : Int) : Half := BitVec.ofNat 16 d.natAbs

end Sys2Proof.Machine
end

