-- ==== Sys2Proof/Machine/Ops.lean ====
section
/-! DEFINITION. The block's primitives (00_scope.md R12): the RawBuffer, the query port, the output ports; the fatal entry
(60_exceptions.md R206) and the one way out of it, reset (70_reset_and_hazards.md R230); host observation (10_state.md R33). -/

namespace Sys2Proof.Machine

open Sys2Proof Config

/-! ## The RawBuffer -/

/-- The block has no addressable memory (R50). Its one indexed storage is BUF, which is canonical when it is within
RAWBUF_CAP (R20, R21). -/
abbrev Memory.wf (q : Params) (buf : List Byte) : Prop := ∀ cap ∈ q.rawbufCap, buf.length ≤ cap

/-- MakeRoom on a byte sequence (R102): with a finite RAWBUF_CAP, a full buffer loses its oldest byte. -/
def roomFor (q : Params) (buf : List Byte) : List Byte :=
  match q.rawbufCap with
  | none => buf
  | some cap => if buf.length = cap then buf.tail else buf

/-- `MakeRoom(); BUF <- BUF ++ [b]` (R101, R102). -/
def pushByte (b : Byte) (s : State) : State := { s with buf := roomFor s.params s.buf ++ [b] }

/-- `BUF <- []` (R108). -/
def clearBuf (s : State) : State := { s with buf := [] }

/-! ## The selection -/

/-- `MODE <- m`. -/
def setMode (m : Mode) (s : State) : State := { s with mode := m }

/-- `INDEX <- i`. -/
def setIndex (i : Nat) (s : State) : State := { s with index := i }

/-! ## The ports -/

/-- `emit C` (R12): one more item on CMD or EVT. -/
def emit (o : OutItem) (s : State) : State := { s with out := s.out ++ [o] }

/-- What the host answers to the next `Query()` (R41): the next scripted answer, or a free value of the lengths R5 admits
(notes/assumptions/2.md). -/
def hostAnswer (s : State) : Answer :=
  match s.answers with
  | [] => clipAnswer s.params (freeAnswer s.queries)
  | a :: _ => a

/-- A query changes no register (R58); the answer it returned is used up, and the counter of queries advances. -/
def afterQuery (s : State) : State := { s with answers := s.answers.tail, queries := s.queries + 1 }

/-- `Query()` (R41). An answer with an over-long list, which the host must never supply (R5), stops the model by name. -/
def query (s : State) : Except Fault (Answer × State) :=
  match s.answers with
  | [] => .ok (hostAnswer s, afterQuery s)
  | a :: _ => if answerFits s.params a then .ok (hostAnswer s, afterQuery s) else .error .hostListTooLong

/-- The next events the host offers on IN, in place of the ones it offered before. A halted block takes no byte, and it is
the host that sends Reset (R207, R208). -/
def offer (evs : List InEvent) (s : State) : State := { s with inEvents := evs }

/-! ## Operations that may raise -/

/-- Where an operation leaves the machine: it returned, or it raised a fatal error, which ends the step (R12, R206). -/
structure Flow where
  state : State
  raised : Bool
  deriving DecidableEq, Repr

/-- The operation returned. -/
def done (s : State) : Flow := ⟨s, false⟩

/-- Fatal entry, `raise Fatal(cause)` (R206): HALT and HALT_CAUSE are written, `Halted(cause)` is emitted, the step ends. -/
def fatal (cause : HaltCause) (s : State) : Flow :=
  ⟨emit (.evt (.halted cause)) { s with halt := true, haltCause := cause }, true⟩

/-- The end of a step: its state, whether the operation returned or raised (notes/assumptions/8.md). -/
def finish : Except Fault Flow → Host.Outcome State Fault Refusal
  | .ok f => .next f.state
  | .error r => .fault r

/-- One query, then an operation on its answer (R133, R162); a failed query is fatal, BACKEND (R202). -/
def withSnapshot (op : Snapshot → State → Flow) (s : State) : Except Fault Flow :=
  match query s with
  | .error r => .error r
  | .ok (a, s1) =>
    .ok (match a with
      | .fail => fatal .backend s1
      | .snap S => op S s1)

/-! ## Reset -/

/-- `DoReset()` (R230): no query, no item; the only exit from the halted state (R208). -/
def doReset (s : State) : State :=
  { s with buf := [], mode := .device, index := 0, halt := false, haltCause := .none }

/-! ## Host observation (R33) and the codes of the items (R22, R25, R214) -/

/-- MODE's encoding (R22). -/
def Mode.bit : Mode → BitVec 1
  | .device => 0
  | .app => 1

/-- HALT_CAUSE's encoding (R25). -/
def HaltCause.code : HaltCause → BitVec 2
  | .none => 0
  | .transport => 1
  | .backend => 2
  | .empty => 3

/-- The code of a CMD item (R214). -/
def Command.code : Command → Nat
  | .devSet _ _ => 1
  | .appInc _ _ => 2
  | .appDec _ _ => 3

/-- The code of an EVT item (R214). -/
def Event.code : Event → Nat
  | .reject _ _ _ => 1
  | .empty _ => 2
  | .halted _ => 3

/-- What the host may read between steps (R33), as encoded. -/
structure Observation where
  modeBit : BitVec 1
  index : Nat
  haltBit : BitVec 1
  causeCode : BitVec 2
  buf : List Byte
  bufLen : Nat
  deriving DecidableEq, Repr

/-- The host's view of a state (R33). -/
def observe (s : State) : Observation where
  modeBit := Mode.bit s.mode
  index := s.index
  haltBit := BitVec.ofBool s.halt
  causeCode := HaltCause.code s.haltCause
  buf := s.buf
  bufLen := s.buf.length

end Sys2Proof.Machine
end

