-- ==== Sys2Proof/Machine/Selection.lean ====
section
/-! DEFINITION. The selection state machine: TOGGLE, NEXT, PREV and BTN_OTHER (42_selection.md). -/

namespace Sys2Proof.Machine

open Sys2Proof Config

/-- EmptyCase(m, flip) (R167): FAULT raises before any write; RECOVER flips the mode for TOGGLE, writes INDEX 0 and emits
`Empty(m)`. -/
def emptyCase (m : Mode) (flip : Bool) (s : State) : Flow :=
  match s.params.emptyPolicy with
  | .fault => fatal .empty s
  | .recover => done (emit (.evt (.empty m)) (setIndex 0 (if flip then setMode m s else s)))

/-- Toggle(S) (R163). -/
def toggleWith (S : Snapshot) (s : State) : Flow :=
  let m2 := s.mode.other
  let cnt := count S m2
  if cnt = 0 then emptyCase m2 true s
  else done (if cnt ≤ s.index then setIndex (cnt - 1) (setMode m2 s) else setMode m2 s)

/-- Next(S) (R164), from the re-validated index (R166). -/
def nextWith (S : Snapshot) (s : State) : Flow :=
  let cnt := count S s.mode
  if cnt = 0 then emptyCase s.mode false s
  else
    let i := clampIndex s.index cnt
    done (setIndex (if i = cnt - 1 then 0 else i + 1) s)

/-- Prev(S) (R165), from the re-validated index (R166). -/
def prevWith (S : Snapshot) (s : State) : Flow :=
  let cnt := count S s.mode
  if cnt = 0 then emptyCase s.mode false s
  else
    let i := clampIndex s.index cnt
    done (setIndex (if i = 0 then cnt - 1 else i - 1) s)

/-- TOGGLE with its query (R160, R162, R163). -/
def toggleOp (s : State) : Except Fault Flow := withSnapshot toggleWith s

/-- NEXT with its query (R160, R162, R164). -/
def nextOp (s : State) : Except Fault Flow := withSnapshot nextWith s

/-- PREV with its query (R160, R162, R165). -/
def prevOp (s : State) : Except Fault Flow := withSnapshot prevWith s

/-- Every other code (R161): no query, no write, no event. -/
def btnOtherOp (_c : Half) (s : State) : Except Fault Flow := .ok (done s)

/-- ButtonOp(c) (R160). -/
def buttonOp (c : Half) (s : State) : Except Fault Flow :=
  if c = btnToggle then toggleOp s
  else if c = btnNext then nextOp s
  else if c = btnPrev then prevOp s
  else btnOtherOp c s

/-- NEXT (R164). -/
def execNext (s : State) : Host.Outcome State Fault Refusal := finish (nextOp s)

/-- TOGGLE (R163). -/
def execToggle (s : State) : Host.Outcome State Fault Refusal := finish (toggleOp s)

/-- PREV (R165). -/
def execPrev (s : State) : Host.Outcome State Fault Refusal := finish (prevOp s)

/-- BTN_OTHER (R161). BUF was cleared by R108 before this runs. -/
def execBtnOther (c : Half) (s : State) : Host.Outcome State Fault Refusal := finish (btnOtherOp c s)

end Sys2Proof.Machine
end

