-- ==== Sys2Proof/Machine/Flags.lean ====
section
/-! DEFINITION. The block has no condition codes (10_state.md R29). These are the comparisons an operation makes and does not
keep: the two jump guards (41_volume.md R138, R141). -/

namespace Sys2Proof.Machine

open Sys2Proof Config

/-- The App jump guard rejects iff `10 * |d| > 65535` (R138). -/
def appRejects (d : Int) : Bool := decide (appDen < appGuardMul * d.natAbs)

/-- The Device jump guard rejects iff `|d| > 10000` (R141). -/
def devRejects (d : Int) : Bool := decide (devGuard < d.natAbs)

/-- The guard of the mode a sensor update runs in (R130). -/
def guardRejects : Mode → Int → Bool
  | .device => devRejects
  | .app => appRejects

end Sys2Proof.Machine
end

