-- ==== Sys2Proof/Machine/Volume.lean ====
section
/-! DEFINITION. The volume scaler and jump guard: SENSOR (41_volume.md). -/

namespace Sys2Proof.Machine

open Sys2Proof Config

/-- The command of an accepted update: AppInc or AppDec in App mode (R139; d = 0 is a decrease by 0), DevSet in Device
mode (R142). -/
def acceptCommand (m : Mode) (j : Nat) (final : Vol) (d : Int) : Command :=
  match m with
  | .app => if 0 < d then .appInc j (numerator d) else .appDec j (numerator d)
  | .device => .devSet j final

/-- SensorOp past its query (R130, R134 to R143): the empty list, the effective index, the guard, the one item. -/
def sensorWith (p : Half) (S : Snapshot) (s : State) : Flow :=
  let cnt := count S s.mode
  if cnt = 0 then
    match s.params.emptyPolicy with
    | .fault => fatal .empty s
    | .recover => done (emit (.evt (.empty s.mode)) s)
  else
    let final := finalVolume p
    let j := clampIndex s.index cnt
    let cur := vol S s.mode j
    let d := difference final cur
    if guardRejects s.mode d then done (emit (.evt (.reject s.mode final cur)) s)
    else done (emit (.cmd (acceptCommand s.mode j final d)) s)

/-- SensorOp(p) (R130). -/
def sensorOp (p : Half) (s : State) : Except Fault Flow := withSnapshot (sensorWith p) s

/-- SENSOR (R130). It does not write BUF: the clear on its hit is the framer's (R108, R145). -/
def execSensor (p : Half) (s : State) : Host.Outcome State Fault Refusal := finish (sensorOp p s)

end Sys2Proof.Machine
end

