-- ==== Sys2Proof/Machine/Framer.lean ====
section
/-! DEFINITION. The packet framer: BYTE, END, the scan, the clear on a hit, the dispatch of a pass's packets, and KIND_OTHER
(40_framer.md). -/

namespace Sys2Proof.Machine

open Sys2Proof Config

/-- The sensor slot S and the buttons slot K of one scan pass (R105); not state (R26). -/
structure Slots where
  sensor : Option Half
  buttons : Option Half
  deriving DecidableEq, Repr

/-- Both slots empty. -/
def Slots.empty : Slots := ⟨none, none⟩

/-- A hit: at least one recognized match (R108). -/
def Slots.hit (sl : Slots) : Bool := sl.sensor.isSome || sl.buttons.isSome

/-- What the window that begins a byte sequence writes to the slots (R105 to R107); fewer than 5 bytes are no window. -/
def Slots.record (sl : Slots) : List Byte → Slots
  | b0 :: b1 :: b2 :: b3 :: b4 :: _ =>
    if b0 = kStart ∧ b4 = kEnd then
      if b1 = kindSensor then { sl with sensor := some (payload b2 b3) }
      else if b1 = kindButtons then { sl with buttons := some (payload b2 b3) }
      else sl
    else sl
  | _ => sl

/-- The windows of a byte sequence in ascending order, each overwriting the slot it fills (R105, R107). -/
def scanFrom : Slots → List Byte → Slots
  | sl, [] => sl
  | sl, b :: rest => scanFrom (sl.record (b :: rest)) rest

/-- Scan(buf) (R105). -/
def scan (buf : List Byte) : Slots := scanFrom Slots.empty buf

/-- Process(S, K) (R120): the sensor operation, then the button operation. A raise in the first ends the step (D17); a
rejection does not (R121). -/
def process (sl : Slots) (s : State) : Except Fault Flow :=
  match sl.sensor, sl.buttons with
  | none, none => .ok (done s)
  | some p, none => sensorOp p s
  | none, some c => buttonOp c s
  | some p, some c =>
    match sensorOp p s with
    | .error r => .error r
    | .ok f => if f.raised then .ok f else buttonOp c f.state

/-- ByteIn(b) (R101): append; at an end marker (R103) with at least 5 bytes (R104) scan, clear on a hit (R108) or keep
(R109), and dispatch. -/
def byteIn (b : Byte) (s : State) : Except Fault Flow :=
  let s1 := pushByte b s
  if b ≠ kEnd then .ok (done s1)
  else if s1.buf.length < frameLen then .ok (done s1)
  else
    let sl := scan s1.buf
    process sl (if sl.hit then clearBuf s1 else s1)

/-- BYTE (R101, R103). -/
def execByte (b : Byte) (s : State) : Host.Outcome State Fault Refusal := finish (byteIn b s)

/-- END (R101, R103 to R109, R120). -/
def execEndByte (s : State) : Host.Outcome State Fault Refusal := finish (byteIn kEnd s)

/-- KIND_OTHER (R78, R107): a structural match with no effect; BUF is retained. -/
def execKindOther (_k : Byte) (_p : Half) (s : State) : Host.Outcome State Fault Refusal := finish (.ok (done s))

end Sys2Proof.Machine
end

