-- ==== Sys2Proof/Machine/Dispatch.lean ====
section
/-! DEFINITION. One arm per instruction. -/

namespace Sys2Proof.Machine

open Sys2Proof

def exec (i : Instr) (s : State) : Host.Outcome State Fault Refusal :=
  match i with
  | .byte b => Sys2Proof.Machine.execByte b s
  | .endByte => Sys2Proof.Machine.execEndByte s
  | .sensor p => Sys2Proof.Machine.execSensor p s
  | .next => Sys2Proof.Machine.execNext s
  | .toggle => Sys2Proof.Machine.execToggle s
  | .prev => Sys2Proof.Machine.execPrev s
  | .btnOther c => Sys2Proof.Machine.execBtnOther c s
  | .kindOther k p => Sys2Proof.Machine.execKindOther k p s

end Sys2Proof.Machine
end

