-- ==== Sys2Proof/Machine/Events.lean ====
section
/-! DEFINITION. The block's step on one IN event (40_framer.md R100), and the placing of a table row's word where the next
step finds it. -/

namespace Sys2Proof.Machine

open Sys2Proof Config

/-- StreamError (R110, R201): fatal, TRANSPORT; BUF, MODE and INDEX are kept. -/
def streamErrorOp (s : State) : Except Fault Flow := .ok (fatal .transport s)

/-- `Step(ev)` (R100). Reset has a step in every state (R209); a halted block has no other (R207); where IN offers nothing
there is no step (R40). The event a step takes is gone from IN (R44). -/
def stepEvent (s : State) : Host.Outcome State Fault Refusal :=
  match s.inEvents with
  | .reset :: rest => .next (doReset { s with inEvents := rest })
  | .streamError :: rest =>
    if s.halt then .fault (.halted s.haltCause) else finish (streamErrorOp { s with inEvents := rest })
  | .byte b :: rest =>
    if s.halt then .fault (.halted s.haltCause) else exec (decodeStream b) { s with inEvents := rest }
  | [] => if s.halt then .fault (.halted s.haltCause) else .fault .awaitingInput

/-- A table row's word where the next step runs it (notes/assumptions/9.md): a stream byte is the next event of IN; a frame
has its first four bytes in BUF and its end marker as the next event of IN. -/
def placeWord (s : State) (nbits w : Nat) : State :=
  match tableBytes nbits w with
  | [b] => { s with inEvents := .byte b :: s.inEvents }
  | [b0, b1, b2, b3, b4] => { s with buf := [b0, b1, b2, b3], inEvents := .byte b4 :: s.inEvents }
  | _ => s

end Sys2Proof.Machine
end

