-- ==== Sys2Proof/Machine/Step.lean ====
section
/-! DEFINITION. The step: one IN event (10_state.md R44). -/

namespace Sys2Proof.Machine

/-- One step of the block (R44, R100). -/
def step (s : State) : Host.Outcome State Fault Refusal := stepEvent s

/-- The state with a table row's word where the next step runs it. -/
def State.withFetchWord (s : State) (nbits w : Nat) : State := placeWord s nbits w

end Sys2Proof.Machine
end

