-- ==== Sys2Proof/Safety.lean ====
section
/-! DEFINITION. The terms the claims use: windows of the RawBuffer, the invariant, runs, and two machines in lockstep. -/

namespace Sys2Proof.Safety

open Sys2Proof Machine

/-! ## The RawBuffer -/

/-- The window at position i is a structural match (R72, R106) of kind k with payload bytes hi and lo. -/
def WindowAt (buf : List Byte) (i : Nat) (k hi lo : Byte) : Prop :=
  (buf.drop i).take 5 = [0xFF#8, k, hi, lo, 0xFE#8]

/-- The window at position i is a Sensor frame of payload p (R52, R73). -/
def SensorAt (buf : List Byte) (i : Nat) (p : Half) : Prop :=
  ∃ hi lo, WindowAt buf i 0xF0#8 hi lo ∧ p.toNat = hi.toNat * 256 + lo.toNat

/-- The window at position i is a Buttons frame of code c (R52, R73). -/
def ButtonsAt (buf : List Byte) (i : Nat) (c : Half) : Prop :=
  ∃ hi lo, WindowAt buf i 0xF1#8 hi lo ∧ c.toNat = hi.toNat * 256 + lo.toNat

/-- No window of the buffer is recognized (R111). -/
def NoRecognized (buf : List Byte) : Prop :=
  ∀ i hi lo, ¬ WindowAt buf i 0xF0#8 hi lo ∧ ¬ WindowAt buf i 0xF1#8 hi lo

/-- The last n bytes of a sequence, or all of it where it is shorter. -/
def lastBytes (n : Nat) (buf : List Byte) : List Byte := buf.drop (buf.length - n)

/-- BUF with one more byte (R101): where it is full, its oldest byte is dropped first (R102). -/
def appended (s : State) (b : Byte) : List Byte :=
  (if s.params.rawbufCap = some s.buf.length then s.buf.drop 1 else s.buf) ++ [b]

/-! ## The invariant -/

/-- What holds between steps: legal parameters, BUF within RAWBUF_CAP (R20), INDEX within W_IDX bits (R23), HALT_CAUSE
recorded exactly while HALT is 1 (R25), cause EMPTY only under FAULT (R203), no recognized window in BUF (R111). -/
structure Inv (s : State) : Prop where
  params_legal : s.params.legal = true
  buf_fits : Memory.wf s.params s.buf
  index_fits : s.index < 2 ^ s.params.wIdx
  halt_cause : s.halt = true ↔ s.haltCause ≠ .none
  empty_cause : s.haltCause = .empty → s.params.emptyPolicy = .fault
  no_recognized : NoRecognized s.buf

/-! ## Runs -/

/-- k steps, stopping at the first fault or refusal: the host's `Core.run` of this machine (`Laws.core_run_eq`). -/
def run : Nat → State → Host.Outcome State Fault Refusal
  | 0, s => .next s
  | k + 1, s =>
    match step s with
    | .next s' => run k s'
    | .fault r => .fault r
    | .refused r => .refused r

/-- How many end markers IN still offers. -/
def endMarkers (s : State) : Nat := s.inEvents.count (.byte 0xFE#8)

/-- A running block whose ports give it no error: no recognized window in BUF, EMPTY_POLICY = RECOVER, no StreamError on IN,
no scripted answer but snapshots of legal lengths, and one of them for every end marker that IN still offers. -/
structure Served (s : State) : Prop where
  running : s.halt = false
  clean : NoRecognized s.buf
  recovers : s.params.emptyPolicy = .recover
  noStreamError : .streamError ∉ s.inEvents
  legalSnapshots : ∀ a ∈ s.answers, (∃ S, a = .snap S) ∧ answerFits s.params a = true
  enoughAnswers : endMarkers s ≤ s.answers.length

/-- A safe run: every event that IN offers is taken, one a step, and the block then runs on, waiting for the next. No fault, no
refusal and no halt on the way. -/
def SafeRun (s : State) : Prop :=
  ∃ t, run s.inEvents.length s = .next t ∧ t.inEvents = [] ∧ t.halt = false

/-- The next answer of the host: it is scripted or free, and its lists have lengths the query port admits (R5, R41). -/
def HostGives (s : State) (a : Answer) : Prop := hostAnswer s = a ∧ answerFits s.params a = true

/-! ## Two machines -/

/-- Two outcomes of the same kind, whose states are related. -/
def Lockstep (R : State → State → Prop) :
    Host.Outcome State Fault Refusal → Host.Outcome State Fault Refusal → Prop
  | .next s, .next t => R s t
  | .fault a, .fault b => a = b
  | .refused a, .refused b => a = b
  | _, _ => False

/-- Two machines that agree on everything but the bytes in BUF and RAWBUF_CAP. -/
structure SameButBuf (s t : State) : Prop where
  mode : s.mode = t.mode
  index : s.index = t.index
  halt : s.halt = t.halt
  haltCause : s.haltCause = t.haltCause
  inEvents : s.inEvents = t.inEvents
  answers : s.answers = t.answers
  queries : s.queries = t.queries
  out : s.out = t.out
  wIdx : s.params.wIdx = t.params.wIdx
  emptyPolicy : s.params.emptyPolicy = t.params.emptyPolicy

/-- The machine s with RAWBUF_CAP = cap beside the machine t with an unbounded RawBuffer (R7, R112). -/
structure CapRefines (cap : Nat) (s t : State) : Prop where
  same : SameButBuf s t
  finite : s.params.rawbufCap = some cap
  unbounded : t.params.rawbufCap = none
  buf : s.buf = lastBytes cap t.buf

/-- Two machines whose RawBuffers agree in their last 4 bytes (R112), whatever the older ones and the capacities. -/
structure SameTail (s t : State) : Prop where
  same : SameButBuf s t
  tail : lastBytes 4 s.buf = lastBytes 4 t.buf
  leftLegal : s.params.legal = true
  rightLegal : t.params.legal = true
  leftClean : NoRecognized s.buf
  rightClean : NoRecognized t.buf

end Sys2Proof.Safety
end

