-- ==== Sys2Proof/Certificates/Slice0/Obligations.lean ====
section
/-! DEFINITION. The statements for the provers. Each docstring names the rules of spec/ it formalises. -/

open Sys2Proof Sys2Proof.Machine Sys2Proof.Safety

/-! ## Encoding -/

/-- R70 to R75, R77, R82: every well-formed instruction is read back from its encoding. -/
def Obligations.DecodeInvertsEncode : Prop :=
  ∀ i : Instr, i.wellFormed = true → decode (encode i) = .ok i

/-- R70 to R75, R77, R82: no two byte sequences decode to one instruction, and what is decoded is well formed. -/
def Obligations.EncodeInvertsDecode : Prop :=
  ∀ (bs : List Byte) (i : Instr), decode bs = .ok i → encode i = bs ∧ i.wellFormed = true

/-- 30_encoding.md section 5 and R71: on all 2^40 words the decoder answers the first row of the table that matches. -/
def Obligations.DecoderFollowsTheOpcodeTable : Prop :=
  ∀ F : BitVec 40,
    firstRow F = match decode (wordBytes F) with
      | .ok i => some i.mnemonic
      | .error _ => none

/-- R72: a window is a frame iff its byte 0 is 0xFF and its byte 4 is 0xFE, whatever bytes 1 to 3 are. -/
def Obligations.WindowIsFrameIffDelimited : Prop :=
  ∀ b0 b1 b2 b3 b4 : Byte,
    (∃ i, decode [b0, b1, b2, b3, b4] = .ok i) ↔ (b0 = 0xFF#8 ∧ b4 = 0xFE#8)

/-- R75: the whole 16-bit payload of a Buttons frame is compared, big-endian, with the three codes. -/
def Obligations.ButtonCodeIsComparedWhole : Prop :=
  ∀ hi lo : Byte,
    decode [0xFF#8, 0xF1#8, hi, lo, 0xFE#8] =
      .ok (if hi.toNat * 256 + lo.toNat = 1 then .next
        else if hi.toNat * 256 + lo.toNat = 2 then .toggle
        else if hi.toNat * 256 + lo.toNat = 8 then .prev
        else .btnOther (BitVec.ofNat 16 (hi.toNat * 256 + lo.toNat)))

/-- 30_encoding.md section 5: a word of each row, written out from its pattern. -/
def Obligations.WrittenOutWordsDecode : Prop :=
  decode [0x34#8] = .ok (.byte 0x34#8) ∧
  decode [0xFE#8] = .ok .endByte ∧
  decode [0xFF#8, 0xF0#8, 0x02#8, 0x00#8, 0xFE#8] = .ok (.sensor 0x0200#16) ∧
  decode [0xFF#8, 0xF1#8, 0x00#8, 0x01#8, 0xFE#8] = .ok .next ∧
  decode [0xFF#8, 0xF1#8, 0x00#8, 0x02#8, 0xFE#8] = .ok .toggle ∧
  decode [0xFF#8, 0xF1#8, 0x00#8, 0x08#8, 0xFE#8] = .ok .prev ∧
  decode [0xFF#8, 0xF1#8, 0x01#8, 0x01#8, 0xFE#8] = .ok (.btnOther 0x0101#16) ∧
  decode [0xFF#8, 0x07#8, 0x12#8, 0x34#8, 0xFE#8] = .ok (.kindOther 0x07#8 0x1234#16)

/-! ## The step on one event -/

/-- R100, R101, R82: a running block hands the next byte, which IN then no longer offers, to the instruction it decodes to. -/
def Obligations.StepRunsTheStreamByte : Prop :=
  ∀ (s : State) (b : Byte) (rest : List InEvent) (i : Instr),
    s.halt = false → s.inEvents = .byte b :: rest → decode [b] = .ok i →
      step s = exec i { s with inEvents := rest }

/-- R77, R101, R108, R109, R112, R120: where the end marker completes a frame, the step is the frame's instruction, run with
BUF cleared on a hit and with the byte appended otherwise. -/
def Obligations.StepRunsTheCompletedFrame : Prop :=
  ∀ (s : State) (rest : List InEvent) (i : Instr),
    s.halt = false → s.params.legal = true → NoRecognized s.buf → 4 ≤ s.buf.length →
    s.inEvents = .byte 0xFE#8 :: rest → decode (lastBytes 4 s.buf ++ [0xFE#8]) = .ok i →
      step s = exec i { s with inEvents := rest, buf := if i.isHit then [] else appended s 0xFE#8 }

/-- The model's own placing of a word (notes/assumptions/9.md): the next step runs the instruction the word decodes to. -/
def Obligations.PlacedWordIsRunNext : Prop :=
  ∀ (s : State) (nbits w : Nat) (i : Instr),
    s.halt = false → s.params.legal = true → decodeTableWord nbits w = some i →
      step (s.withFetchWord nbits w) =
        if i.isFrame then exec i { s with buf := if i.isHit then [] else tableBytes nbits w } else exec i s

/-- R230: reset is taken in any state, halted or not; it writes the five registers, makes no query and emits nothing; and
the state of power-on has the same registers. -/
def Obligations.ResetWritesEveryRegister : Prop :=
  (∀ (s : State) (rest : List InEvent), s.inEvents = .reset :: rest →
    step s = .next { s with
      buf := [], mode := .device, index := 0, halt := false, haltCause := .none, inEvents := rest }) ∧
  State.reset.buf = [] ∧ State.reset.mode = .device ∧ State.reset.index = 0 ∧
  State.reset.halt = false ∧ State.reset.haltCause = .none

/-- R207: while HALT is 1 a Byte or a StreamError has no step, and the outcome is a fault. That nothing offered on IN is the
same fault halted, and not the wait awaitingInput, is the model's choice (notes/assumptions/7.md). -/
def Obligations.HaltedBlockHasNoStep : Prop :=
  ∀ s : State, s.halt = true → (∀ rest, s.inEvents ≠ .reset :: rest) →
    step s = .fault (.halted s.haltCause)

/-- R110, R201, R206: StreamError halts a running block with cause TRANSPORT; BUF, MODE and INDEX are kept. -/
def Obligations.StreamErrorHaltsTheBlock : Prop :=
  ∀ (s : State) (rest : List InEvent), s.halt = false → s.inEvents = .streamError :: rest →
    step s = .next { s with
      halt := true, haltCause := .transport, inEvents := rest,
      out := s.out ++ [.evt (.halted .transport)] }

/-- R40, I10: with no event on IN a running block has no step. That the wait is the fault awaitingInput is the model's
choice (notes/assumptions/6.md). -/
def Obligations.NoEventNoStep : Prop :=
  ∀ s : State, s.halt = false → s.inEvents = [] → step s = .fault .awaitingInput

/-! ## The framer -/

/-- R102: a full RawBuffer loses its oldest byte, an unbounded one nothing. -/
def Obligations.MakeRoomDropsTheOldestByte : Prop :=
  (∀ (q : Params) (cap : Nat) (buf : List Byte), q.rawbufCap = some cap →
    roomFor q buf = if buf.length = cap then buf.drop 1 else buf) ∧
  (∀ (q : Params) (buf : List Byte), q.rawbufCap = none → roomFor q buf = buf)

/-- R101, R102, R103: BYTE only appends its byte. -/
def Obligations.ByteOnlyAppends : Prop :=
  ∀ (s : State) (b : Byte), b ≠ 0xFE#8 → exec (.byte b) s = .next { s with buf := appended s b }

/-- R104: END with fewer than 5 bytes in BUF only appends. -/
def Obligations.EndOnShortBufferOnlyAppends : Prop :=
  ∀ s : State, (appended s 0xFE#8).length < 5 →
    exec .endByte s = .next { s with buf := appended s 0xFE#8 }

/-- R109: END with no recognized window in BUF keeps it, KIND_OTHER frames included, and does nothing else. -/
def Obligations.EndWithoutHitKeepsTheBuffer : Prop :=
  ∀ s : State, NoRecognized (appended s 0xFE#8) →
    exec .endByte s = .next { s with buf := appended s 0xFE#8 }

/-- R101, R108, R120: END with one packet in its pass clears BUF and then runs that packet's instruction. -/
def Obligations.EndRunsItsOnePacket : Prop :=
  ∀ s : State,
    (∀ p, scan (appended s 0xFE#8) = ⟨some p, none⟩ →
      exec .endByte s = exec (.sensor p) { s with buf := [] }) ∧
    (∀ c, scan (appended s 0xFE#8) = ⟨none, some c⟩ →
      exec .endByte s = exec (decodeButton c) { s with buf := [] })

/-- R61, R108, R120, R121, D17: END with both packets in its pass runs the sensor operation on the cleared buffer and then
the button operation on what it left, unless the sensor operation halted the block. -/
def Obligations.EndRunsSensorThenButtons : Prop :=
  ∀ (s : State) (p c : Half), s.halt = false → scan (appended s 0xFE#8) = ⟨some p, some c⟩ →
    (∀ t, exec (.sensor p) { s with buf := [] } = .next t →
      exec .endByte s = if t.halt then .next t else exec (decodeButton c) t) ∧
    (∀ r, exec (.sensor p) { s with buf := [] } = .fault r → exec .endByte s = .fault r)

/-- R105, R107: each slot holds the payload of the last window of its kind, and is empty where there is none. -/
def Obligations.ScanKeepsTheLastMatchOfEachKind : Prop :=
  ∀ buf : List Byte,
    (∀ p, (scan buf).sensor = some p ↔
      ∃ i, SensorAt buf i p ∧ ∀ j q, i < j → ¬ SensorAt buf j q) ∧
    (∀ c, (scan buf).buttons = some c ↔
      ∃ i, ButtonsAt buf i c ∧ ∀ j q, i < j → ¬ ButtonsAt buf j q)

/-- R111: BUF has no recognized window after reset, and no step leaves one in it. -/
def Obligations.StepLeavesNoRecognizedWindow : Prop :=
  NoRecognized State.reset.buf ∧
  ∀ s s' : State, NoRecognized s.buf → step s = .next s' → NoRecognized s'.buf

/-- R112: a pass from the IN port sees only its last window, and at most one packet. -/
def Obligations.PassSeesOnlyTheLastWindow : Prop :=
  ∀ (buf : List Byte) (b : Byte), NoRecognized buf → 4 ≤ buf.length →
    scan (buf ++ [b]) = scan (lastBytes 5 (buf ++ [b])) ∧
    ((scan (buf ++ [b])).sensor = none ∨ (scan (buf ++ [b])).buttons = none)

/-- R7, R112: a finite RAWBUF_CAP changes no item, no MODE, no INDEX and no HALT, and BUF is the last bytes of the unbounded
one, step after step. -/
def Obligations.FiniteCapacityRefinesUnbounded : Prop :=
  ∀ (cap : Nat) (s t : State), 5 ≤ cap → NoRecognized t.buf → CapRefines cap s t →
    Lockstep (fun s' t' => CapRefines cap s' t' ∧ NoRecognized t'.buf) (step s) (step t)

/-- R112: everything a block does depends on no byte of BUF older than the last four. -/
def Obligations.OlderBytesAreNeverObserved : Prop :=
  ∀ s t : State, SameTail s t → Lockstep SameTail (step s) (step t)

/-- R55, R105, R108, R235: where BUF holds no recognized window (R111), and whatever else it holds, the five bytes of a Sensor
or Buttons frame run its instruction after exactly five steps, with BUF cleared. Left out are the frames with a payload byte
0xFE, which scan early (R236); `StepRunsTheCompletedFrame` says what the last step of those is. -/
def Obligations.CleanFrameIsReceived : Prop :=
  ∀ (s : State) (rest : List InEvent) (i : Instr),
    s.halt = false → s.params.legal = true → NoRecognized s.buf →
    i.wellFormed = true → i.isHit = true → 0xFE#8 ∉ (encode i).take 4 →
    s.inEvents = (encode i).map InEvent.byte ++ rest →
      run 5 s = exec i { s with buf := [], inEvents := rest }

/-- R63: no step changes a byte of BUF: it keeps BUF, appends the byte received, or clears the whole. -/
def Obligations.BufferBytesAreNeverEdited : Prop :=
  ∀ s s' : State, step s = .next s' →
    s'.buf = s.buf ∨ s'.buf = [] ∨ ∃ b rest, s.inEvents = .byte b :: rest ∧ s'.buf = appended s b

/-- R78, R107: KIND_OTHER has no effect. -/
def Obligations.KindOtherHasNoEffect : Prop :=
  ∀ (s : State) (k : Byte) (p : Half), exec (.kindOther k p) s = .next s

/-! ## The volume scaler and jump guard -/

/-- R131, R132: the scaler's value and range over every payload, and its two shift forms. -/
def Obligations.ScalerIsExact : Prop :=
  ∀ p : Half,
    (finalVolume p).toNat = 65535 * p.toNat / 1024 ∧
    (finalVolume p).toNat ≤ 4194176 ∧
    finalVolume p = (65535 * p.zeroExtend 32) >>> 10 ∧
    finalVolume p = ((p.zeroExtend 32 <<< 16) - p.zeroExtend 32) >>> 10

/-- R138, R139, R42: the App guard rejects from 6554 on, and an accepted difference is carried whole. -/
def Obligations.AppGuardBoundsTheNumerator : Prop :=
  ∀ d : Int,
    (appRejects d = true ↔ 6554 ≤ d.natAbs) ∧
    (appRejects d = false → (numerator d).toNat = d.natAbs ∧ (numerator d).toNat ≤ 6553)

/-- R130, R131, R135, R136, R137, R141, R142, R143: SENSOR in Device mode. -/
def Obligations.SensorSetsOrRejectsADevice : Prop :=
  ∀ (s : State) (p : Half) (S : Snapshot) (cur : Vol),
    HostGives s (.snap S) → s.mode = .device →
    S.dev[min s.index (S.dev.length - 1)]? = some cur →
      exec (.sensor p) s = .next { s with
        answers := s.answers.tail, queries := s.queries + 1,
        out := s.out ++ [
          if 10000 < (((65535 * p.toNat / 1024 : Nat) : Int) - (cur.toNat : Int)).natAbs
          then .evt (.reject .device (BitVec.ofNat 32 (65535 * p.toNat / 1024)) cur)
          else .cmd (.devSet (min s.index (S.dev.length - 1)) (BitVec.ofNat 32 (65535 * p.toNat / 1024)))] }

/-- R130, R131, R135, R136, R137, R138, R139, R143: SENSOR in App mode. -/
def Obligations.SensorAdjustsOrRejectsAnApp : Prop :=
  ∀ (s : State) (p : Half) (S : Snapshot) (cur : Vol) (d : Int),
    HostGives s (.snap S) → s.mode = .app →
    S.app[min s.index (S.app.length - 1)]? = some cur →
    d = ((65535 * p.toNat / 1024 : Nat) : Int) - (cur.toNat : Int) →
      exec (.sensor p) s = .next { s with
        answers := s.answers.tail, queries := s.queries + 1,
        out := s.out ++ [
          if 65535 < 10 * d.natAbs
          then .evt (.reject .app (BitVec.ofNat 32 (65535 * p.toNat / 1024)) cur)
          else if 0 < d
          then .cmd (.appInc (min s.index (S.app.length - 1)) (BitVec.ofNat 16 d.natAbs))
          else .cmd (.appDec (min s.index (S.app.length - 1)) (BitVec.ofNat 16 d.natAbs))] }

/-- R134: SENSOR with an empty active list emits Empty(MODE) and no command under RECOVER, and halts under FAULT. -/
def Obligations.SensorMeetsAnEmptyList : Prop :=
  ∀ (s : State) (p : Half) (S : Snapshot), HostGives s (.snap S) → count S s.mode = 0 →
    (s.params.emptyPolicy = .recover →
      exec (.sensor p) s = .next { s with
        answers := s.answers.tail, queries := s.queries + 1, out := s.out ++ [.evt (.empty s.mode)] }) ∧
    (s.params.emptyPolicy = .fault →
      exec (.sensor p) s = .next { s with
        answers := s.answers.tail, queries := s.queries + 1,
        halt := true, haltCause := .empty, out := s.out ++ [.evt (.halted .empty)] })

/-- R133: SENSOR makes exactly one query; where it fails the block halts with cause BACKEND and emits no command. -/
def Obligations.SensorQueriesOnceAndHaltsOnFail : Prop :=
  (∀ (s t : State) (p : Half), exec (.sensor p) s = .next t → t.queries = s.queries + 1) ∧
  (∀ (s : State) (p : Half), HostGives s .fail →
    exec (.sensor p) s = .next { s with
      answers := s.answers.tail, queries := s.queries + 1,
      halt := true, haltCause := .backend, out := s.out ++ [.evt (.halted .backend)] })

/-- R144: a SENSOR that does not raise emits exactly one item, of the kinds its mode allows. -/
def Obligations.SensorEmitsExactlyOneItem : Prop :=
  ∀ (s t : State) (p : Half), s.halt = false → exec (.sensor p) s = .next t → t.halt = false →
    ∃ x, t.out = s.out ++ [x] ∧
      ((s.mode = .device ∧ ∃ i v, x = .cmd (.devSet i v)) ∨
       (s.mode = .app ∧ ∃ i n, x = .cmd (.appInc i n) ∨ x = .cmd (.appDec i n)) ∨
       (∃ final cur, x = .evt (.reject s.mode final cur)) ∨
       x = .evt (.empty s.mode))

/-- R145: a SENSOR that does not raise writes no register; it takes one answer and no event, and it keeps the parameters. -/
def Obligations.SensorWritesNoRegister : Prop :=
  ∀ (s t : State) (p : Half), s.halt = false → exec (.sensor p) s = .next t → t.halt = false →
    t = { s with answers := s.answers.tail, queries := s.queries + 1, out := t.out }

/-! ## The selection state machine -/

/-- R164, R166, R170: NEXT on a list with entries; everything but INDEX and the query is kept. -/
def Obligations.NextStepsForwardModuloCount : Prop :=
  ∀ (s : State) (S : Snapshot) (cnt : Nat), HostGives s (.snap S) → count S s.mode = cnt → 0 < cnt →
    exec .next s = .next { s with
      answers := s.answers.tail, queries := s.queries + 1,
      index := (min s.index (cnt - 1) + 1) % cnt }

/-- R165, R166, R170: PREV on a list with entries; everything but INDEX and the query is kept. -/
def Obligations.PrevStepsBackModuloCount : Prop :=
  ∀ (s : State) (S : Snapshot) (cnt : Nat), HostGives s (.snap S) → count S s.mode = cnt → 0 < cnt →
    exec .prev s = .next { s with
      answers := s.answers.tail, queries := s.queries + 1,
      index := (min s.index (cnt - 1) + cnt - 1) % cnt }

/-- R163: TOGGLE into a list with entries flips MODE and clamps INDEX; everything else but the query is kept. -/
def Obligations.ToggleFlipsAndClamps : Prop :=
  ∀ (s : State) (S : Snapshot) (cnt : Nat) (m2 : Mode), HostGives s (.snap S) →
    m2 ≠ s.mode → count S m2 = cnt → 0 < cnt →
    exec .toggle s = .next { s with
      answers := s.answers.tail, queries := s.queries + 1,
      mode := m2, index := if cnt ≤ s.index then cnt - 1 else s.index }

/-- R167, RECOVER: NEXT and PREV on an empty active list, TOGGLE into an empty one. -/
def Obligations.TransitionRecoversFromAnEmptyList : Prop :=
  ∀ (s : State) (S : Snapshot), HostGives s (.snap S) → s.params.emptyPolicy = .recover →
    (count S s.mode = 0 → ∀ i : Instr, (i = .next ∨ i = .prev) →
      exec i s = .next { s with
        answers := s.answers.tail, queries := s.queries + 1,
        index := 0, out := s.out ++ [.evt (.empty s.mode)] }) ∧
    (∀ m2 : Mode, m2 ≠ s.mode → count S m2 = 0 →
      exec .toggle s = .next { s with
        answers := s.answers.tail, queries := s.queries + 1,
        mode := m2, index := 0, out := s.out ++ [.evt (.empty m2)] })

/-- R167, R203, FAULT: the same three halt with cause EMPTY and write no MODE and no INDEX. -/
def Obligations.TransitionHaltsOnAnEmptyList : Prop :=
  ∀ (s : State) (S : Snapshot) (i : Instr), HostGives s (.snap S) → s.params.emptyPolicy = .fault →
    ((count S s.mode = 0 ∧ (i = .next ∨ i = .prev)) ∨
      (i = .toggle ∧ ∃ m2, m2 ≠ s.mode ∧ count S m2 = 0)) →
    exec i s = .next { s with
      answers := s.answers.tail, queries := s.queries + 1,
      halt := true, haltCause := .empty, out := s.out ++ [.evt (.halted .empty)] }

/-- R162: TOGGLE, NEXT and PREV make exactly one query; where it fails the block halts with cause BACKEND and writes no MODE
and no INDEX. -/
def Obligations.TransitionQueriesOnceAndHaltsOnFail : Prop :=
  ∀ (s : State) (i : Instr), (i = .toggle ∨ i = .next ∨ i = .prev) →
    (∀ t, exec i s = .next t → t.queries = s.queries + 1) ∧
    (HostGives s .fail →
      exec i s = .next { s with
        answers := s.answers.tail, queries := s.queries + 1,
        halt := true, haltCause := .backend, out := s.out ++ [.evt (.halted .backend)] })

/-- R161: BTN_OTHER makes no query, writes nothing and emits nothing. -/
def Obligations.BtnOtherHasNoEffect : Prop :=
  ∀ (s : State) (c : Half), exec (.btnOther c) s = .next s

/-- R169: after a transition that did not raise, INDEX is inside the snapshot's list of the mode, or 0 where that is empty. -/
def Obligations.IndexIsInsideTheListAfterATransition : Prop :=
  ∀ (s t : State) (S : Snapshot) (i : Instr),
    s.halt = false → HostGives s (.snap S) → (i = .toggle ∨ i = .next ∨ i = .prev) →
    exec i s = .next t → t.halt = false →
      (0 < count S t.mode → t.index < count S t.mode) ∧ (count S t.mode = 0 → t.index = 0)

/-- R164, R165, R170: PREV undoes NEXT while the list keeps its count and INDEX is not stale. -/
def Obligations.PrevUndoesNext : Prop :=
  ∀ (s t : State) (S S' : Snapshot),
    HostGives s (.snap S) → s.index < count S s.mode → exec .next s = .next t →
    HostGives t (.snap S') → count S' s.mode = count S s.mode →
      ∃ u, exec .prev t = .next u ∧ u.index = s.index ∧ u.mode = s.mode

/-- The model's stop (notes/assumptions/5.md): a scripted answer the host must never give (R5, R41) ends SENSOR, NEXT,
TOGGLE and PREV by name. -/
def Obligations.OverlongListStopsByName : Prop :=
  ∀ (s : State) (a : Answer) (rest : List Answer) (i : Instr),
    s.answers = a :: rest → answerFits s.params a = false →
    (i = .toggle ∨ i = .next ∨ i = .prev ∨ ∃ p, i = .sensor p) →
      exec i s = .fault .hostListTooLong

/-! ## Errors and outputs -/

/-- R206: the fatal entry saves the cause, keeps BUF, MODE and INDEX and what was emitted, and ends the step. -/
def Obligations.FatalEntrySavesOnlyTheCause : Prop :=
  ∀ (cause : HaltCause) (s : State),
    fatal cause s = ⟨{ s with halt := true, haltCause := cause, out := s.out ++ [.evt (.halted cause)] }, true⟩

/-- R210: a frame's instruction that halts a running block has written no MODE, no INDEX and no BUF and has emitted nothing
but Halted. -/
def Obligations.FatalErrorsArePrecise : Prop :=
  ∀ (s t : State) (i : Instr), i.isFrame = true → s.halt = false → exec i s = .next t → t.halt = true →
    (t.haltCause = .backend ∨ t.haltCause = .empty) ∧
    t = { s with
      answers := s.answers.tail, queries := s.queries + 1,
      halt := true, haltCause := t.haltCause, out := s.out ++ [.evt (.halted t.haltCause)] }

/-- R24, R25: apart from Reset, HALT and HALT_CAUSE are written only together, only while HALT is 0, and with a cause. -/
def Obligations.FirstFatalCauseIsKept : Prop :=
  ∀ s s' : State, step s = .next s' → (∀ rest, s.inEvents ≠ .reset :: rest) →
    s.halt = false ∧
    ((s'.halt = s.halt ∧ s'.haltCause = s.haltCause) ∨
     (s'.halt = true ∧ s'.haltCause ≠ .none ∧ ∃ before, s'.out = before ++ [.evt (.halted s'.haltCause)]))

/-- R122: a step appends to the outputs at most one item of SensorOp, then at most one Empty of ButtonOp, then Halted if and
only if it raised. -/
def Obligations.StepOutputsInOrder : Prop :=
  ∀ s s' : State, step s = .next s' →
    ∃ fromSensor fromButtons fromHalt,
      s'.out = s.out ++ fromSensor ++ fromButtons ++ fromHalt ∧
      (fromSensor = [] ∨ (∃ c, fromSensor = [.cmd c]) ∨ (∃ m f c, fromSensor = [.evt (.reject m f c)]) ∨
        ∃ m, fromSensor = [.evt (.empty m)]) ∧
      (fromButtons = [] ∨ ∃ m, fromButtons = [.evt (.empty m)]) ∧
      (if s.halt = false ∧ s'.halt = true then fromHalt = [.evt (.halted s'.haltCause)] else fromHalt = [])

/-- R44, R58: a step takes exactly one event, calls Query() at most twice, uses up exactly the answers it asked for, and
keeps the parameters (R31). -/
def Obligations.StepUsesOneEventAndAtMostTwoAnswers : Prop :=
  ∀ s s' : State, step s = .next s' →
    (∃ ev, s.inEvents = ev :: s'.inEvents) ∧
    s.queries ≤ s'.queries ∧ s'.queries ≤ s.queries + 2 ∧
    s'.answers = s.answers.drop (s'.queries - s.queries) ∧
    s'.params = s.params

/-- R22: of all IN events only Reset, and an end marker whose pass holds the button code ModeToggle, write MODE. -/
def Obligations.OnlyToggleWritesMode : Prop :=
  ∀ s s' : State, step s = .next s' → s'.mode ≠ s.mode →
    (∃ rest, s.inEvents = .reset :: rest) ∨
    ((∃ rest, s.inEvents = .byte 0xFE#8 :: rest) ∧ (scan (appended s 0xFE#8)).buttons = some 0x0002#16)

/-- R23, R145: of all IN events only Reset, and an end marker whose pass holds one of the three button codes, write INDEX. -/
def Obligations.OnlyButtonsWriteIndex : Prop :=
  ∀ s s' : State, step s = .next s' → s'.index ≠ s.index →
    (∃ rest, s.inEvents = .reset :: rest) ∨
    ((∃ rest, s.inEvents = .byte 0xFE#8 :: rest) ∧
      ∃ c, (scan (appended s 0xFE#8)).buttons = some c ∧ (c = 0x0001#16 ∨ c = 0x0002#16 ∨ c = 0x0008#16))

/-- R80, R200: no byte value stops the block. While its ports give it no error and IN offers an event, it has a next step,
which again leaves it so. -/
def Obligations.NoByteValueStopsTheBlock : Prop :=
  ∀ s : State, Served s → s.inEvents ≠ [] → ∃ t, step s = .next t ∧ Served t

/-! ## The invariant, and host observation -/

/-- R20, R23, R25, R111, R203: every step keeps the invariant, from every state that has it. -/
def Obligations.StepKeepsTheInvariant : Prop :=
  ∀ s s' : State, Inv s → step s = .next s' → Inv s'

/-- R230: the state after reset has the invariant. -/
def Obligations.ResetHasTheInvariant : Prop := Inv State.reset

/-- R22, R24, R25, R33: what the host reads of the registers, in the encodings of the spec. -/
def Obligations.HostReadsTheEncodedRegisters : Prop :=
  ∀ s : State,
    (observe s).modeBit = (match s.mode with | .device => 0 | .app => 1) ∧
    (observe s).index = s.index ∧
    (observe s).haltBit = (if s.halt then 1 else 0) ∧
    (observe s).causeCode =
      (match s.haltCause with | .none => 0 | .transport => 1 | .backend => 2 | .empty => 3) ∧
    (observe s).buf = s.buf ∧ (observe s).bufLen = s.buf.length

/-- R214: the numbers of the CMD and EVT items. -/
def Obligations.ItemsAreNumberedAsTheSpecSays : Prop :=
  (∀ m f c, (Event.reject m f c).code = 1) ∧ (∀ m, (Event.empty m).code = 2) ∧
  (∀ cause, (Event.halted cause).code = 3) ∧
  (∀ i v, (Command.devSet i v).code = 1) ∧ (∀ i n, (Command.appInc i n).code = 2) ∧
  (∀ i n, (Command.appDec i n).code = 3)

/-- R44, R80, R200: while the ports give the block no error, a run takes every event that IN offers, one a step, with no fault,
no refusal and no halt. -/
def Obligations.EveryOfferedByteIsTaken : Prop := ∀ s : State, Served s → SafeRun s
end

