-- ==== Sys2Proof/Laws/State.lean ====
section
/-! SUPPORT. One lemma per field per update of the state, and the two ends an operation can come to. -/

namespace Sys2Proof.Laws

open Sys2Proof Machine

@[simp] theorem pushByte_buf (b : Byte) (s : State) : (pushByte b s).buf = roomFor s.params s.buf ++ [b] := rfl
@[simp] theorem pushByte_mode (b : Byte) (s : State) : (pushByte b s).mode = s.mode := rfl
@[simp] theorem pushByte_index (b : Byte) (s : State) : (pushByte b s).index = s.index := rfl
@[simp] theorem pushByte_halt (b : Byte) (s : State) : (pushByte b s).halt = s.halt := rfl
@[simp] theorem pushByte_haltCause (b : Byte) (s : State) : (pushByte b s).haltCause = s.haltCause := rfl
@[simp] theorem pushByte_inEvents (b : Byte) (s : State) : (pushByte b s).inEvents = s.inEvents := rfl
@[simp] theorem pushByte_answers (b : Byte) (s : State) : (pushByte b s).answers = s.answers := rfl
@[simp] theorem pushByte_queries (b : Byte) (s : State) : (pushByte b s).queries = s.queries := rfl
@[simp] theorem pushByte_out (b : Byte) (s : State) : (pushByte b s).out = s.out := rfl
@[simp] theorem pushByte_params (b : Byte) (s : State) : (pushByte b s).params = s.params := rfl

@[simp] theorem clearBuf_buf (s : State) : (clearBuf s).buf = [] := rfl
@[simp] theorem clearBuf_mode (s : State) : (clearBuf s).mode = s.mode := rfl
@[simp] theorem clearBuf_index (s : State) : (clearBuf s).index = s.index := rfl
@[simp] theorem clearBuf_halt (s : State) : (clearBuf s).halt = s.halt := rfl
@[simp] theorem clearBuf_haltCause (s : State) : (clearBuf s).haltCause = s.haltCause := rfl
@[simp] theorem clearBuf_inEvents (s : State) : (clearBuf s).inEvents = s.inEvents := rfl
@[simp] theorem clearBuf_answers (s : State) : (clearBuf s).answers = s.answers := rfl
@[simp] theorem clearBuf_queries (s : State) : (clearBuf s).queries = s.queries := rfl
@[simp] theorem clearBuf_out (s : State) : (clearBuf s).out = s.out := rfl
@[simp] theorem clearBuf_params (s : State) : (clearBuf s).params = s.params := rfl

@[simp] theorem setMode_buf (m : Mode) (s : State) : (setMode m s).buf = s.buf := rfl
@[simp] theorem setMode_mode (m : Mode) (s : State) : (setMode m s).mode = m := rfl
@[simp] theorem setMode_index (m : Mode) (s : State) : (setMode m s).index = s.index := rfl
@[simp] theorem setMode_halt (m : Mode) (s : State) : (setMode m s).halt = s.halt := rfl
@[simp] theorem setMode_haltCause (m : Mode) (s : State) : (setMode m s).haltCause = s.haltCause := rfl
@[simp] theorem setMode_inEvents (m : Mode) (s : State) : (setMode m s).inEvents = s.inEvents := rfl
@[simp] theorem setMode_answers (m : Mode) (s : State) : (setMode m s).answers = s.answers := rfl
@[simp] theorem setMode_queries (m : Mode) (s : State) : (setMode m s).queries = s.queries := rfl
@[simp] theorem setMode_out (m : Mode) (s : State) : (setMode m s).out = s.out := rfl
@[simp] theorem setMode_params (m : Mode) (s : State) : (setMode m s).params = s.params := rfl

@[simp] theorem setIndex_buf (i : Nat) (s : State) : (setIndex i s).buf = s.buf := rfl
@[simp] theorem setIndex_mode (i : Nat) (s : State) : (setIndex i s).mode = s.mode := rfl
@[simp] theorem setIndex_index (i : Nat) (s : State) : (setIndex i s).index = i := rfl
@[simp] theorem setIndex_halt (i : Nat) (s : State) : (setIndex i s).halt = s.halt := rfl
@[simp] theorem setIndex_haltCause (i : Nat) (s : State) : (setIndex i s).haltCause = s.haltCause := rfl
@[simp] theorem setIndex_inEvents (i : Nat) (s : State) : (setIndex i s).inEvents = s.inEvents := rfl
@[simp] theorem setIndex_answers (i : Nat) (s : State) : (setIndex i s).answers = s.answers := rfl
@[simp] theorem setIndex_queries (i : Nat) (s : State) : (setIndex i s).queries = s.queries := rfl
@[simp] theorem setIndex_out (i : Nat) (s : State) : (setIndex i s).out = s.out := rfl
@[simp] theorem setIndex_params (i : Nat) (s : State) : (setIndex i s).params = s.params := rfl

@[simp] theorem emit_buf (o : OutItem) (s : State) : (emit o s).buf = s.buf := rfl
@[simp] theorem emit_mode (o : OutItem) (s : State) : (emit o s).mode = s.mode := rfl
@[simp] theorem emit_index (o : OutItem) (s : State) : (emit o s).index = s.index := rfl
@[simp] theorem emit_halt (o : OutItem) (s : State) : (emit o s).halt = s.halt := rfl
@[simp] theorem emit_haltCause (o : OutItem) (s : State) : (emit o s).haltCause = s.haltCause := rfl
@[simp] theorem emit_inEvents (o : OutItem) (s : State) : (emit o s).inEvents = s.inEvents := rfl
@[simp] theorem emit_answers (o : OutItem) (s : State) : (emit o s).answers = s.answers := rfl
@[simp] theorem emit_queries (o : OutItem) (s : State) : (emit o s).queries = s.queries := rfl
@[simp] theorem emit_out (o : OutItem) (s : State) : (emit o s).out = s.out ++ [o] := rfl
@[simp] theorem emit_params (o : OutItem) (s : State) : (emit o s).params = s.params := rfl

@[simp] theorem afterQuery_buf (s : State) : (afterQuery s).buf = s.buf := rfl
@[simp] theorem afterQuery_mode (s : State) : (afterQuery s).mode = s.mode := rfl
@[simp] theorem afterQuery_index (s : State) : (afterQuery s).index = s.index := rfl
@[simp] theorem afterQuery_halt (s : State) : (afterQuery s).halt = s.halt := rfl
@[simp] theorem afterQuery_haltCause (s : State) : (afterQuery s).haltCause = s.haltCause := rfl
@[simp] theorem afterQuery_inEvents (s : State) : (afterQuery s).inEvents = s.inEvents := rfl
@[simp] theorem afterQuery_answers (s : State) : (afterQuery s).answers = s.answers.tail := rfl
@[simp] theorem afterQuery_queries (s : State) : (afterQuery s).queries = s.queries + 1 := rfl
@[simp] theorem afterQuery_out (s : State) : (afterQuery s).out = s.out := rfl
@[simp] theorem afterQuery_params (s : State) : (afterQuery s).params = s.params := rfl

@[simp] theorem offer_buf (evs : List InEvent) (s : State) : (offer evs s).buf = s.buf := rfl
@[simp] theorem offer_mode (evs : List InEvent) (s : State) : (offer evs s).mode = s.mode := rfl
@[simp] theorem offer_index (evs : List InEvent) (s : State) : (offer evs s).index = s.index := rfl
@[simp] theorem offer_halt (evs : List InEvent) (s : State) : (offer evs s).halt = s.halt := rfl
@[simp] theorem offer_haltCause (evs : List InEvent) (s : State) : (offer evs s).haltCause = s.haltCause := rfl
@[simp] theorem offer_inEvents (evs : List InEvent) (s : State) : (offer evs s).inEvents = evs := rfl
@[simp] theorem offer_answers (evs : List InEvent) (s : State) : (offer evs s).answers = s.answers := rfl
@[simp] theorem offer_queries (evs : List InEvent) (s : State) : (offer evs s).queries = s.queries := rfl
@[simp] theorem offer_out (evs : List InEvent) (s : State) : (offer evs s).out = s.out := rfl
@[simp] theorem offer_params (evs : List InEvent) (s : State) : (offer evs s).params = s.params := rfl

@[simp] theorem doReset_buf (s : State) : (doReset s).buf = [] := rfl
@[simp] theorem doReset_mode (s : State) : (doReset s).mode = .device := rfl
@[simp] theorem doReset_index (s : State) : (doReset s).index = 0 := rfl
@[simp] theorem doReset_halt (s : State) : (doReset s).halt = false := rfl
@[simp] theorem doReset_haltCause (s : State) : (doReset s).haltCause = .none := rfl
@[simp] theorem doReset_inEvents (s : State) : (doReset s).inEvents = s.inEvents := rfl
@[simp] theorem doReset_answers (s : State) : (doReset s).answers = s.answers := rfl
@[simp] theorem doReset_queries (s : State) : (doReset s).queries = s.queries := rfl
@[simp] theorem doReset_out (s : State) : (doReset s).out = s.out := rfl
@[simp] theorem doReset_params (s : State) : (doReset s).params = s.params := rfl

@[simp] theorem done_state (s : State) : (done s).state = s := rfl
@[simp] theorem done_raised (s : State) : (done s).raised = false := rfl
@[simp] theorem fatal_raised (c : HaltCause) (s : State) : (fatal c s).raised = true := rfl
@[simp] theorem fatal_buf (c : HaltCause) (s : State) : (fatal c s).state.buf = s.buf := rfl
@[simp] theorem fatal_mode (c : HaltCause) (s : State) : (fatal c s).state.mode = s.mode := rfl
@[simp] theorem fatal_index (c : HaltCause) (s : State) : (fatal c s).state.index = s.index := rfl
@[simp] theorem fatal_halt (c : HaltCause) (s : State) : (fatal c s).state.halt = true := rfl
@[simp] theorem fatal_haltCause (c : HaltCause) (s : State) : (fatal c s).state.haltCause = c := rfl
@[simp] theorem fatal_inEvents (c : HaltCause) (s : State) : (fatal c s).state.inEvents = s.inEvents := rfl
@[simp] theorem fatal_answers (c : HaltCause) (s : State) : (fatal c s).state.answers = s.answers := rfl
@[simp] theorem fatal_queries (c : HaltCause) (s : State) : (fatal c s).state.queries = s.queries := rfl
@[simp] theorem fatal_out (c : HaltCause) (s : State) : (fatal c s).state.out = s.out ++ [.evt (.halted c)] := rfl
@[simp] theorem fatal_params (c : HaltCause) (s : State) : (fatal c s).state.params = s.params := rfl
@[simp] theorem finish_ok (f : Flow) : finish (.ok f) = .next f.state := rfl
@[simp] theorem finish_error (r : Fault) : finish (.error r) = .fault r := rfl

/-- A step's end is a next state exactly where the operation answered a flow. -/
theorem finish_next {e : Except Fault Flow} {t : State} (h : finish e = .next t) : ∃ f, e = .ok f ∧ f.state = t := by
  cases e with
  | error r => cases h
  | ok f => exact ⟨f, rfl, by simpa using h⟩

/-- A step's end is a fault exactly where the operation answered that fault. -/
theorem finish_fault {e : Except Fault Flow} {r : Fault} (h : finish e = .fault r) : e = .error r := by
  cases e with
  | error q => simpa using h
  | ok f => cases h

end Sys2Proof.Laws
end

