-- ==== Sys2Proof/Laws/Ops.lean ====
section
/-! SUPPORT. What each primitive can do, said once: room in the RawBuffer, the query, an operation on a snapshot. -/

namespace Sys2Proof.Laws

open Sys2Proof Machine Config

/-! ## The RawBuffer -/

theorem roomFor_unbounded {q : Params} (buf : List Byte) (h : q.rawbufCap = none) : roomFor q buf = buf := by
  simp [roomFor, h]

theorem roomFor_finite {q : Params} {cap : Nat} (buf : List Byte) (h : q.rawbufCap = some cap) :
    roomFor q buf = if buf.length = cap then buf.tail else buf := by
  simp [roomFor, h]

/-- Making room drops the oldest byte or nothing. -/
theorem roomFor_cases (q : Params) (buf : List Byte) :
    (roomFor q buf = buf ∧ q.rawbufCap ≠ some buf.length) ∨
    (roomFor q buf = buf.tail ∧ q.rawbufCap = some buf.length) := by
  cases h : q.rawbufCap with
  | none => exact .inl ⟨roomFor_unbounded buf h, by simp⟩
  | some cap =>
    rw [roomFor_finite buf h]
    by_cases hl : buf.length = cap
    · exact .inr ⟨by simp [hl], by simp [hl]⟩
    · exact .inl ⟨by simp [hl], by simpa using Ne.symm hl⟩

theorem roomFor_suffix (q : Params) (buf : List Byte) : roomFor q buf <:+ buf := by
  rcases roomFor_cases q buf with ⟨h, -⟩ | ⟨h, -⟩
  · rw [h]
  · rw [h]
    exact List.tail_suffix _

/-- With legal parameters a byte is dropped only from a buffer of at least 5 bytes. -/
theorem roomFor_short {q : Params} {buf : List Byte} (hq : q.legal = true) (hl : buf.length < 5) :
    roomFor q buf = buf := by
  rcases roomFor_cases q buf with ⟨h, -⟩ | ⟨-, h⟩
  · exact h
  · simp [Params.legal, h] at hq
    omega

theorem wf_nil (q : Params) : Memory.wf q [] := by
  intro cap _
  simp

/-- Making room and appending keeps the RawBuffer within a capacity that is not 0. -/
theorem wf_push {q : Params} {buf : List Byte} (b : Byte) (hq : q.legal = true) (h : Memory.wf q buf) :
    Memory.wf q (roomFor q buf ++ [b]) := by
  intro cap hcap
  have hle := h cap hcap
  have hc : q.rawbufCap = some cap := hcap
  rw [roomFor_finite buf hc]
  have h5 : 5 ≤ cap := by
    simp [Params.legal, hc] at hq
    exact hq.2
  split <;> simp <;> omega

/-! ## The query -/

theorem clipAnswer_fits (q : Params) (a : Answer) : answerFits q (clipAnswer q a) = true := by
  have hpos : 0 < 2 ^ q.wIdx := Nat.two_pow_pos _
  cases a with
  | fail => rfl
  | snap S =>
    simp only [clipAnswer, answerFits, snapshotFits, List.length_take, Bool.and_eq_true, decide_eq_true_eq]
    omega

/-- A query answers what the host gives, unless that is a list too long for the port. -/
theorem query_eq (s : State) :
    query s = if answerFits s.params (hostAnswer s) then .ok (hostAnswer s, afterQuery s)
      else .error .hostListTooLong := by
  unfold query hostAnswer
  cases h : s.answers with
  | nil => simp [clipAnswer_fits]
  | cons a rest => simp

/-- An operation on a snapshot, where the host gives what the port admits. -/
theorem withSnapshot_snap {op : Snapshot → State → Flow} {s : State} {S : Snapshot}
    (ha : hostAnswer s = .snap S) (hf : answerFits s.params (.snap S) = true) :
    withSnapshot op s = .ok (op S (afterQuery s)) := by
  simp [withSnapshot, query_eq, ha, hf]

theorem withSnapshot_fail {op : Snapshot → State → Flow} {s : State} (ha : hostAnswer s = .fail) :
    withSnapshot op s = .ok (fatal .backend (afterQuery s)) := by
  simp [withSnapshot, query_eq, ha, answerFits]

/-- Everything an operation on a snapshot can come to. -/
theorem withSnapshot_cases (op : Snapshot → State → Flow) (s : State) :
    withSnapshot op s = .error .hostListTooLong ∨
    withSnapshot op s = .ok (fatal .backend (afterQuery s)) ∨
    ∃ S, hostAnswer s = .snap S ∧ answerFits s.params (.snap S) = true ∧
      withSnapshot op s = .ok (op S (afterQuery s)) := by
  by_cases hf : answerFits s.params (hostAnswer s) = true
  · cases ha : hostAnswer s with
    | fail => exact .inr (.inl (withSnapshot_fail ha))
    | snap S => exact .inr (.inr ⟨S, rfl, ha ▸ hf, withSnapshot_snap ha (ha ▸ hf)⟩)
  · exact .inl (by simp [withSnapshot, query_eq, hf])

/-- An entry inside the list is what the port's list holds there. -/
theorem vol_eq_of_getElem? {S : Snapshot} {m : Mode} {i : Nat} {v : Vol} (h : (targets S m)[i]? = some v) :
    vol S m i = v := by
  simp [vol, List.getD, h]

/-- The effective index is inside a list that has entries. -/
theorem clampIndex_lt {index cnt : Nat} (h : 0 < cnt) : clampIndex index cnt < cnt := by
  unfold clampIndex
  omega

end Sys2Proof.Laws
end

