-- ==== Sys2Proof/Laws/Operations.lean ====
section
/-! SUPPORT. What the sensor operation, the transitions and the dispatch can do, said once each. -/

namespace Sys2Proof.Laws

open Sys2Proof Machine Config

/-- SensorOp past its query: an empty list by policy, a rejection, or one command. -/
theorem sensorWith_cases (p : Half) (S : Snapshot) (s : State) :
    (count S s.mode = 0 ∧ s.params.emptyPolicy = .fault ∧ sensorWith p S s = fatal .empty s) ∨
    (count S s.mode = 0 ∧ s.params.emptyPolicy = .recover ∧
      sensorWith p S s = done (emit (.evt (.empty s.mode)) s)) ∨
    (count S s.mode ≠ 0 ∧ ∃ j cur d, j = clampIndex s.index (count S s.mode) ∧ cur = vol S s.mode j ∧
      d = difference (finalVolume p) cur ∧
      ((guardRejects s.mode d = true ∧
          sensorWith p S s = done (emit (.evt (.reject s.mode (finalVolume p) cur)) s)) ∨
       (guardRejects s.mode d = false ∧
          sensorWith p S s = done (emit (.cmd (acceptCommand s.mode j (finalVolume p) d)) s)))) := by
  by_cases h0 : count S s.mode = 0
  · cases hp : s.params.emptyPolicy with
    | fault => exact .inl ⟨h0, rfl, by simp [sensorWith, h0, hp]⟩
    | recover => exact .inr (.inl ⟨h0, rfl, by simp [sensorWith, h0, hp]⟩)
  · refine .inr (.inr ⟨h0, _, _, _, rfl, rfl, rfl, ?_⟩)
    cases hg : guardRejects s.mode (difference (finalVolume p)
        (vol S s.mode (clampIndex s.index (count S s.mode)))) with
    | true => exact .inl ⟨rfl, by simp [sensorWith, h0, hg]⟩
    | false => exact .inr ⟨rfl, by simp [sensorWith, h0, hg]⟩

/-- The empty list in a transition, by policy. -/
theorem emptyCase_cases (m : Mode) (flip : Bool) (s : State) :
    (s.params.emptyPolicy = .fault ∧ emptyCase m flip s = fatal .empty s) ∨
    (s.params.emptyPolicy = .recover ∧
      emptyCase m flip s = done (emit (.evt (.empty m)) (setIndex 0 (if flip then setMode m s else s)))) := by
  cases hp : s.params.emptyPolicy with
  | fault => exact .inl ⟨rfl, by simp [emptyCase, hp]⟩
  | recover => exact .inr ⟨rfl, by simp [emptyCase, hp]⟩

theorem toggleWith_cases (S : Snapshot) (s : State) :
    (count S s.mode.other = 0 ∧ toggleWith S s = emptyCase s.mode.other true s) ∨
    (count S s.mode.other ≠ 0 ∧ count S s.mode.other ≤ s.index ∧
      toggleWith S s = done (setIndex (count S s.mode.other - 1) (setMode s.mode.other s))) ∨
    (count S s.mode.other ≠ 0 ∧ s.index < count S s.mode.other ∧
      toggleWith S s = done (setMode s.mode.other s)) := by
  by_cases h0 : count S s.mode.other = 0
  · exact .inl ⟨h0, by simp [toggleWith, h0]⟩
  · by_cases hc : count S s.mode.other ≤ s.index
    · exact .inr (.inl ⟨h0, hc, by simp [toggleWith, h0, hc]⟩)
    · exact .inr (.inr ⟨h0, by omega, by simp [toggleWith, h0, hc]⟩)

theorem nextWith_cases (S : Snapshot) (s : State) :
    (count S s.mode = 0 ∧ nextWith S s = emptyCase s.mode false s) ∨
    (count S s.mode ≠ 0 ∧ ∃ i, i < count S s.mode ∧ i = (min s.index (count S s.mode - 1) + 1) % count S s.mode ∧
      nextWith S s = done (setIndex i s)) := by
  by_cases h0 : count S s.mode = 0
  · exact .inl ⟨h0, by simp [nextWith, h0]⟩
  · refine .inr ⟨h0, _, Nat.mod_lt _ (by omega), rfl, ?_⟩
    have hc : clampIndex s.index (count S s.mode) = min s.index (count S s.mode - 1) := rfl
    by_cases hi : clampIndex s.index (count S s.mode) = count S s.mode - 1
    · simp only [nextWith, if_neg h0, if_pos hi]
      rw [← hc, hi, Nat.sub_add_cancel (by omega), Nat.mod_self]
    · simp only [nextWith, if_neg h0, if_neg hi]
      rw [← hc, Nat.mod_eq_of_lt (by omega)]

theorem prevWith_cases (S : Snapshot) (s : State) :
    (count S s.mode = 0 ∧ prevWith S s = emptyCase s.mode false s) ∨
    (count S s.mode ≠ 0 ∧ ∃ i, i < count S s.mode ∧
      i = (min s.index (count S s.mode - 1) + count S s.mode - 1) % count S s.mode ∧
      prevWith S s = done (setIndex i s)) := by
  by_cases h0 : count S s.mode = 0
  · exact .inl ⟨h0, by simp [prevWith, h0]⟩
  · refine .inr ⟨h0, _, Nat.mod_lt _ (by omega), rfl, ?_⟩
    have hc : clampIndex s.index (count S s.mode) = min s.index (count S s.mode - 1) := rfl
    by_cases hi : clampIndex s.index (count S s.mode) = 0
    · simp only [prevWith, if_neg h0, if_pos hi]
      rw [← hc, hi, Nat.mod_eq_of_lt (by omega)]
      simp
    · have hlt : clampIndex s.index (count S s.mode) - 1 < count S s.mode := by omega
      simp only [prevWith, if_neg h0, if_neg hi]
      rw [← hc, show clampIndex s.index (count S s.mode) + count S s.mode - 1
        = clampIndex s.index (count S s.mode) - 1 + count S s.mode by omega, Nat.add_mod_right, Nat.mod_eq_of_lt hlt]

/-- ButtonOp on a code is one of the four operations, by the code (R160). -/
theorem buttonOp_cases (c : Half) (s : State) :
    (c = btnToggle ∧ buttonOp c s = withSnapshot toggleWith s) ∨
    (c = btnNext ∧ buttonOp c s = withSnapshot nextWith s) ∨
    (c = btnPrev ∧ buttonOp c s = withSnapshot prevWith s) ∨
    (c ≠ btnToggle ∧ c ≠ btnNext ∧ c ≠ btnPrev ∧ buttonOp c s = .ok (done s)) := by
  by_cases ht : c = btnToggle
  · exact .inl ⟨ht, by simp [buttonOp, ht, toggleOp]⟩
  · by_cases hn : c = btnNext
    · exact .inr (.inl ⟨hn, by simp [buttonOp, hn, nextOp]⟩)
    · by_cases hp : c = btnPrev
      · exact .inr (.inr (.inl ⟨hp, by simp [buttonOp, hp, prevOp]⟩))
      · exact .inr (.inr (.inr ⟨ht, hn, hp, by simp [buttonOp, ht, hn, hp, btnOtherOp]⟩))

/-- Process: nothing, one operation, or the sensor operation followed, unless it raised or stopped, by the button operation
(R120). -/
theorem process_cases (sl : Slots) (s : State) :
    (sl = ⟨none, none⟩ ∧ process sl s = .ok (done s)) ∨
    (∃ p, sl = ⟨some p, none⟩ ∧ process sl s = sensorOp p s) ∨
    (∃ c, sl = ⟨none, some c⟩ ∧ process sl s = buttonOp c s) ∨
    (∃ p c, sl = ⟨some p, some c⟩ ∧
      ((∃ r, sensorOp p s = .error r ∧ process sl s = .error r) ∨
       (∃ f, sensorOp p s = .ok f ∧ f.raised = true ∧ process sl s = .ok f) ∨
       (∃ f, sensorOp p s = .ok f ∧ f.raised = false ∧ process sl s = buttonOp c f.state))) := by
  match sl with
  | ⟨none, none⟩ => exact .inl ⟨rfl, rfl⟩
  | ⟨some p, none⟩ => exact .inr (.inl ⟨p, rfl, rfl⟩)
  | ⟨none, some c⟩ => exact .inr (.inr (.inl ⟨c, rfl, rfl⟩))
  | ⟨some p, some c⟩ =>
    refine .inr (.inr (.inr ⟨p, c, rfl, ?_⟩))
    cases h : sensorOp p s with
    | error r => exact .inl ⟨r, rfl, by simp [process, h]⟩
    | ok f =>
      cases hr : f.raised with
      | true => exact .inr (.inl ⟨f, rfl, hr, by simp [process, h, hr]⟩)
      | false => exact .inr (.inr ⟨f, rfl, hr, by simp [process, h, hr]⟩)

/-- ByteIn: an append alone, or an append, a scan of at least 5 bytes, and its dispatch (R101). -/
theorem byteIn_cases (b : Byte) (s : State) :
    (b ≠ kEnd ∧ byteIn b s = .ok (done (pushByte b s))) ∨
    (b = kEnd ∧ (pushByte b s).buf.length < 5 ∧ byteIn b s = .ok (done (pushByte b s))) ∨
    (b = kEnd ∧ 5 ≤ (pushByte b s).buf.length ∧
      byteIn b s = process (scan (pushByte b s).buf)
        (if (scan (pushByte b s).buf).hit then clearBuf (pushByte b s) else pushByte b s)) := by
  by_cases hb : b = kEnd
  · by_cases hl : (pushByte b s).buf.length < 5
    · exact .inr (.inl ⟨hb, hl, by
        subst hb
        simp only [byteIn, frameLen, hl, ne_eq, not_true, if_true, if_false]⟩)
    · refine .inr (.inr ⟨hb, by omega, ?_⟩)
      simp only [byteIn, frameLen, hl, if_false]
      simp [hb]
  · exact .inl ⟨hb, by simp [byteIn, hb]⟩

end Sys2Proof.Laws
end

