-- ==== Sys2Proof/Laws/Scan.lean ====
section
/-! SUPPORT. The scan: what one window writes, what one more byte adds, and when a pass finds nothing. -/

namespace Sys2Proof.Laws

open Sys2Proof Machine Config Safety

/-- Fewer than five bytes are no window. -/
theorem record_short (sl : Slots) {w : List Byte} (h : w.length < 5) : sl.record w = sl := by
  match w, h with
  | [], _ => rfl
  | [_], _ => rfl
  | [_, _], _ => rfl
  | [_, _, _], _ => rfl
  | [_, _, _, _], _ => rfl

/-- A window is read from its first five bytes alone. -/
theorem record_append (sl : Slots) {w : List Byte} (v : List Byte) (h : 5 ≤ w.length) :
    sl.record (w ++ v) = sl.record w := by
  match w, h with
  | _ :: _ :: _ :: _ :: _ :: _, _ => rfl

/-- What the window that begins a sequence writes: a Sensor payload, a Buttons code, or nothing (R105, R107). -/
theorem record_cases (sl : Slots) (w : List Byte) :
    (∃ hi lo, WindowAt w 0 kindSensor hi lo ∧ sl.record w = { sl with sensor := some (payload hi lo) }) ∨
    (∃ hi lo, WindowAt w 0 kindButtons hi lo ∧ sl.record w = { sl with buttons := some (payload hi lo) }) ∨
    ((∀ hi lo, ¬ WindowAt w 0 kindSensor hi lo ∧ ¬ WindowAt w 0 kindButtons hi lo) ∧ sl.record w = sl) := by
  by_cases hl : w.length < 5
  · refine .inr (.inr ⟨fun hi lo => ⟨fun h => ?_, fun h => ?_⟩, record_short sl hl⟩)
    all_goals
      have hlen := congrArg List.length h
      simp at hlen
      omega
  · match w, not_lt.mp hl with
    | b0 :: b1 :: b2 :: b3 :: b4 :: rest, _ =>
      by_cases hd : b0 = kStart ∧ b4 = kEnd
      · obtain ⟨rfl, rfl⟩ := hd
        by_cases h1 : b1 = kindSensor
        · subst h1
          exact .inl ⟨b2, b3, rfl, by simp [Slots.record]⟩
        · by_cases h2 : b1 = kindButtons
          · subst h2
            exact .inr (.inl ⟨b2, b3, rfl, by simp [Slots.record]⟩)
          · refine .inr (.inr ⟨fun hi lo => ⟨fun h => ?_, fun h => ?_⟩, by simp [Slots.record, h1, h2]⟩)
            all_goals
              simp [WindowAt] at h
              simp_all
      · refine .inr (.inr ⟨fun hi lo => ⟨fun h => ?_, fun h => ?_⟩, by simp only [Slots.record, hd, if_false]⟩)
        all_goals
          simp [WindowAt] at h
          exact hd ⟨h.1, h.2.2.2.2⟩

/-- Fewer than five bytes hold no window. -/
theorem scanFrom_short (sl : Slots) {w : List Byte} (h : w.length < 5) : scanFrom sl w = sl := by
  induction w with
  | nil => rfl
  | cons b rest ih =>
    simp only [scanFrom, record_short sl h]
    exact ih (by simp at h; omega)

/-- One more byte adds one window, the last one (R112). -/
theorem scanFrom_snoc (sl : Slots) (w : List Byte) (b : Byte) :
    scanFrom sl (w ++ [b]) = (scanFrom sl w).record (lastBytes 4 w ++ [b]) := by
  induction w generalizing sl with
  | nil => rfl
  | cons a rest ih =>
    by_cases hl : rest.length < 4
    · rw [scanFrom_short sl (w := a :: rest) (by simp; omega)]
      have h0 : lastBytes 4 (a :: rest) = a :: rest := by
        rw [lastBytes, show (a :: rest).length - 4 = 0 by simp; omega, List.drop_zero]
      rw [h0, List.cons_append, scanFrom, scanFrom_short _ (by simp; omega)]
    · have h1 : lastBytes 4 (a :: rest) = lastBytes 4 rest := by
        rw [lastBytes, lastBytes, List.length_cons, show rest.length + 1 - 4 = rest.length - 4 + 1 by omega,
          List.drop_succ_cons]
      rw [h1, List.cons_append, scanFrom, ih, scanFrom, ← List.cons_append, record_append sl [b] (w := a :: rest) (by simp; omega)]

/-- One more byte adds one window, the last one (R112). -/
theorem scan_snoc (w : List Byte) (b : Byte) :
    scan (w ++ [b]) = (scan w).record (lastBytes 4 w ++ [b]) := scanFrom_snoc _ w b

/-- A slot once filled stays filled, so a pass that ends empty began empty. -/
theorem record_eq_empty {sl : Slots} {w : List Byte} (h : sl.record w = Slots.empty) : sl = Slots.empty := by
  rcases record_cases sl w with ⟨_, _, -, hr⟩ | ⟨_, _, -, hr⟩ | ⟨-, hr⟩
  · rw [hr] at h
    simp [Slots.empty] at h
  · rw [hr] at h
    simp [Slots.empty] at h
  · exact hr ▸ h

theorem scanFrom_eq_empty {sl : Slots} {w : List Byte} (h : scanFrom sl w = Slots.empty) : sl = Slots.empty := by
  induction w generalizing sl with
  | nil => exact h
  | cons b rest ih => exact record_eq_empty (ih h)

theorem windowAt_succ (a : Byte) (w : List Byte) (i : Nat) (k hi lo : Byte) :
    WindowAt (a :: w) (i + 1) k hi lo ↔ WindowAt w i k hi lo := Iff.rfl

/-- A pass finds nothing exactly where no window is recognized (R109, R111). -/
theorem noRecognized_iff (buf : List Byte) : NoRecognized buf ↔ scan buf = Slots.empty := by
  induction buf with
  | nil =>
    refine ⟨fun _ => rfl, fun _ i hi lo => ?_⟩
    simp [WindowAt]
  | cons a rest ih =>
    constructor
    · intro h
      have hr : Slots.record Slots.empty (a :: rest) = Slots.empty := by
        rcases record_cases Slots.empty (a :: rest) with ⟨hi, lo, hw, -⟩ | ⟨hi, lo, hw, -⟩ | ⟨-, hr⟩
        · exact absurd hw (h 0 hi lo).1
        · exact absurd hw (h 0 hi lo).2
        · exact hr
      rw [scan, scanFrom, hr]
      exact ih.mp fun i hi lo => h (i + 1) hi lo
    · intro h i hi lo
      rw [scan, scanFrom] at h
      have hr := scanFrom_eq_empty h
      rw [hr] at h
      cases i with
      | succ i => exact ih.mpr h i hi lo
      | zero =>
        rcases record_cases Slots.empty (a :: rest) with ⟨_, _, -, hx⟩ | ⟨_, _, -, hx⟩ | ⟨hx, -⟩
        · rw [hr] at hx
          simp [Slots.empty] at hx
        · rw [hr] at hx
          simp [Slots.empty] at hx
        · exact hx hi lo

theorem hit_eq_false {sl : Slots} : sl.hit = false ↔ sl = Slots.empty := by
  cases sl with
  | mk a b => cases a <;> cases b <;> simp [Slots.hit, Slots.empty]

/-- Dropping the oldest bytes makes no window (R111). -/
theorem noRecognized_suffix {u w : List Byte} (h : u <:+ w) (hw : NoRecognized w) : NoRecognized u := by
  obtain ⟨pre, rfl⟩ := h
  intro i hi lo
  have hx := hw (pre.length + i) hi lo
  simpa [WindowAt, ← List.drop_drop] using hx

end Sys2Proof.Laws
end

