-- ==== Sys2Proof/Laws/Step.lean ====
section
/-! SUPPORT. What one step can do, said once (40_framer.md R100). -/

namespace Sys2Proof.Laws

open Sys2Proof Machine Config Safety

/-- A byte is handed to ByteIn whatever its class (R82, R101). -/
theorem exec_decodeStream (b : Byte) (s : State) : exec (decodeStream b) s = finish (byteIn b s) := by
  by_cases hb : b = kEnd
  · subst hb
    rfl
  · simp [decodeStream, hb, exec, execByte]

/-- A step that answers a next state took a Reset, or, with HALT = 0, a StreamError or a byte. -/
theorem step_cases {s s' : State} (h : step s = .next s') :
    (∃ rest, s.inEvents = .reset :: rest ∧ s' = doReset { s with inEvents := rest }) ∨
    (∃ rest, s.inEvents = .streamError :: rest ∧ s.halt = false ∧
      s' = (fatal .transport { s with inEvents := rest }).state) ∨
    (∃ b rest f, s.inEvents = .byte b :: rest ∧ s.halt = false ∧
      byteIn b { s with inEvents := rest } = .ok f ∧ s' = f.state) := by
  by_cases hh : s.halt = true
  · match hev : s.inEvents with
    | [] => simp [step, stepEvent, hev, hh] at h
    | .reset :: rest => exact .inl ⟨rest, rfl, by simpa [step, stepEvent, hev, eq_comm] using h⟩
    | .streamError :: rest => simp [step, stepEvent, hev, hh] at h
    | .byte b :: rest => simp [step, stepEvent, hev, hh] at h
  · have h0 : s.halt = false := by simpa using hh
    match hev : s.inEvents with
    | [] => simp [step, stepEvent, hev, hh] at h
    | .reset :: rest => exact .inl ⟨rest, rfl, by simpa [step, stepEvent, hev, eq_comm] using h⟩
    | .streamError :: rest =>
      simp only [step, stepEvent, hev, if_neg hh] at h
      exact .inr (.inl ⟨rest, rfl, h0, by cases h; rfl⟩)
    | .byte b :: rest =>
      simp only [step, stepEvent, hev, if_neg hh, exec_decodeStream] at h
      obtain ⟨f, hf, hs⟩ := finish_next h
      exact .inr (.inr ⟨b, rest, f, rfl, h0, hf, hs.symm⟩)

/-- The button operation of a code is the meaning of the instruction the code decodes to (R77, R160). -/
theorem exec_decodeButton (c : Half) (s : State) : exec (decodeButton c) s = finish (buttonOp c s) := by
  rcases buttonOp_cases c s with ⟨rfl, h⟩ | ⟨rfl, h⟩ | ⟨rfl, h⟩ | ⟨ht, hn, hp, h⟩
  · rfl
  · rfl
  · rfl
  · rw [h]
    simp [decodeButton, ht, hn, hp, exec, execBtnOther, btnOtherOp]

/-- A claim's buffer after one more byte is the one the framer computes (R101, R102). -/
theorem appended_eq (s : State) (b : Byte) : appended s b = roomFor s.params s.buf ++ [b] := by
  rcases roomFor_cases s.params s.buf with ⟨h, hc⟩ | ⟨h, hc⟩
  · simp [appended, h, hc]
  · simp [appended, h, hc]

theorem pushByte_eq (b : Byte) (s : State) : pushByte b s = { s with buf := appended s b } := by
  rw [appended_eq]
  rfl

/-- A run stays at its state until a step is asked for. -/
@[simp] theorem run_zero (s : State) : run 0 s = .next s := rfl

/-- A run of one more step, where the first step answers a next state. -/
theorem run_succ_next {s s' : State} (k : Nat) (h : step s = .next s') : run (k + 1) s = run k s' := by
  simp only [run, h]

/-- A run of one more step, where the first step answers a fault. -/
theorem run_succ_fault {s : State} {r : Fault} (k : Nat) (h : step s = .fault r) : run (k + 1) s = .fault r := by
  simp only [run, h]

/-- A run of one more step, where the first step is refused. -/
theorem run_succ_refused {s : State} {r : Refusal} (k : Nat) (h : step s = .refused r) : run (k + 1) s = .refused r := by
  simp only [run, h]

/-- One more step of the host's run, whatever the machine. -/
theorem host_run_next {M : Host.Core} {s s' : M.State} (k : Nat) (h : M.step s = .next s') :
    M.run (k + 1) s = M.run k s' := by
  rw [Host.Core.run, h]

theorem host_run_fault {M : Host.Core} {s : M.State} {r : M.Fault} (k : Nat) (h : M.step s = .fault r) :
    M.run (k + 1) s = .fault r := by
  rw [Host.Core.run, h]

theorem host_run_refused {M : Host.Core} {s : M.State} {r : M.Refusal} (k : Nat) (h : M.step s = .refused r) :
    M.run (k + 1) s = .refused r := by
  rw [Host.Core.run, h]

/-- The run of the claims is the host's. -/
theorem core_run_eq (k : Nat) (s : State) : Host.Core.run Sys2Proof.core k s = run k s := by
  induction k generalizing s with
  | zero => rfl
  | succ k ih =>
    cases h : step s with
    | next s' => exact (host_run_next (M := Sys2Proof.core) k h).trans ((ih s').trans (run_succ_next k h).symm)
    | fault r => exact (host_run_fault (M := Sys2Proof.core) k h).trans (run_succ_fault k h).symm
    | refused r => exact (host_run_refused (M := Sys2Proof.core) k h).trans (run_succ_refused k h).symm

end Sys2Proof.Laws
end

