-- ==== Sys2Proof/Laws/Buffer.lean ====
section
/-! SUPPORT. The last bytes of the RawBuffer, and what a scan of a buffer with one more byte depends on. -/

namespace Sys2Proof.Laws

open Sys2Proof Machine Config Safety

theorem lastBytes_length (n : Nat) (w : List Byte) : (lastBytes n w).length = min n w.length := by
  simp [lastBytes]
  omega

theorem lastBytes_of_length_le {n : Nat} {w : List Byte} (h : w.length ≤ n) : lastBytes n w = w := by
  simp [lastBytes, Nat.sub_eq_zero_of_le h]

theorem lastBytes_suffix (n : Nat) (w : List Byte) : lastBytes n w <:+ w := List.drop_suffix _ _

theorem lastBytes_lastBytes {m n : Nat} (h : m ≤ n) (w : List Byte) :
    lastBytes m (lastBytes n w) = lastBytes m w := by
  simp [lastBytes, List.drop_drop]
  omega

theorem lastBytes_snoc (n : Nat) (w : List Byte) (b : Byte) : lastBytes (n + 1) (w ++ [b]) = lastBytes n w ++ [b] := by
  simp only [lastBytes, List.length_append, List.length_cons, List.length_nil]
  rw [List.drop_append_of_le_length (by omega)]
  congr 2
  omega

/-- With no recognized window before the append, the scan is that of the one new window (R112). -/
theorem scan_snoc_of_noRecognized {w : List Byte} (b : Byte) (h : NoRecognized w) :
    scan (w ++ [b]) = Slots.empty.record (lastBytes 4 w ++ [b]) := by
  rw [scan_snoc, (noRecognized_iff w).mp h]

/-- A legal capacity never drops one of the last four bytes before an append (R7, R102). -/
theorem lastBytes_appended {s : State} (h : s.params.legal = true) {n : Nat} (hn : n ≤ 4) (b : Byte) :
    lastBytes (n + 1) (appended s b) = lastBytes n s.buf ++ [b] := by
  rw [appended_eq]
  rcases roomFor_cases s.params s.buf with ⟨h', _⟩ | ⟨h', hc⟩ <;> rw [h', lastBytes_snoc]
  have : 5 ≤ s.buf.length := by
    simp [Params.legal, hc] at h
    exact h.2
  simp [lastBytes]
  omega

theorem noRecognized_nil : NoRecognized [] := by
  rw [noRecognized_iff]
  rfl

end Sys2Proof.Laws
end

