-- ==== Sys2Proof/Laws/Payload.lean ====
section
/-! SUPPORT. Payload assembly: the two bytes and the 16-bit value determine each other (R52, R74). -/

namespace Sys2Proof.Laws

open Sys2Proof

theorem payload_toNat (hi lo : Byte) : (payload hi lo).toNat = hi.toNat * 256 + lo.toNat := by
  have h1 := hi.isLt
  have h2 := lo.isLt
  simp only [payload, BitVec.toNat_ofNat]
  omega

theorem payloadHi_toNat (p : Half) : (payloadHi p).toNat = p.toNat / 256 := by
  have h := p.isLt
  simp only [payloadHi, BitVec.extractLsb'_toNat, Nat.shiftRight_eq_div_pow]
  omega

theorem payloadLo_toNat (p : Half) : (payloadLo p).toNat = p.toNat % 256 := by
  simp [payloadLo, BitVec.extractLsb'_toNat]

@[simp] theorem payload_hi_lo (p : Half) : payload (payloadHi p) (payloadLo p) = p := by
  apply BitVec.eq_of_toNat_eq
  rw [payload_toNat, payloadHi_toNat, payloadLo_toNat]
  omega

@[simp] theorem payloadHi_payload (hi lo : Byte) : payloadHi (payload hi lo) = hi := by
  apply BitVec.eq_of_toNat_eq
  have h := lo.isLt
  rw [payloadHi_toNat, payload_toNat]
  omega

@[simp] theorem payloadLo_payload (hi lo : Byte) : payloadLo (payload hi lo) = lo := by
  apply BitVec.eq_of_toNat_eq
  have h := lo.isLt
  rw [payloadLo_toNat, payload_toNat]
  omega

/-- A payload is a given value exactly where its two bytes make that number (R52). -/
theorem payload_eq_iff (hi lo : Byte) (p : Half) : payload hi lo = p ↔ p.toNat = hi.toNat * 256 + lo.toNat := by
  rw [← payload_toNat]
  exact ⟨fun h => h ▸ rfl, fun h => BitVec.eq_of_toNat_eq h.symm⟩

end Sys2Proof.Laws
end

