-- ==== Sys2Proof/Laws/PerInstr.lean ====
section
/-! SUPPORT. Facts about every instruction, one lemma per constructor. -/

namespace Sys2Proof.Laws

open Sys2Proof Config

/-- An encoding has the one length of its format; a frame is delimited; and only END among the stream bytes is 0xFE (R70,
R72, R82). -/
def EncodingShape.Statement (i : Instr) : Prop :=
  i.wellFormed = true →
    if i.isFrame then ∃ k hi lo, encode i = [kStart, k, hi, lo, kEnd] ∧ (i.isHit = true ↔ k = kindSensor ∨ k = kindButtons)
    else ∃ b, encode i = [b] ∧ (b = kEnd ↔ i = .endByte)

namespace EncodingShape

theorem byte (b : Byte) : Statement (.byte b) := by
  intro h
  exact ⟨b, rfl, by simpa [Instr.wellFormed] using h⟩

theorem endByte : Statement .endByte := fun _ => ⟨kEnd, rfl, by simp⟩

theorem sensor (p : Half) : Statement (.sensor p) := fun _ => ⟨_, _, _, rfl, by simp [Instr.isHit]⟩

theorem next : Statement .next := fun _ => ⟨_, _, _, rfl, by simp [Instr.isHit]⟩

theorem toggle : Statement .toggle := fun _ => ⟨_, _, _, rfl, by simp [Instr.isHit]⟩

theorem prev : Statement .prev := fun _ => ⟨_, _, _, rfl, by simp [Instr.isHit]⟩

theorem btnOther (c : Half) : Statement (.btnOther c) := fun _ => ⟨_, _, _, rfl, by simp [Instr.isHit]⟩

theorem kindOther (k : Byte) (p : Half) : Statement (.kindOther k p) := by
  intro h
  exact ⟨_, _, _, rfl, by simp_all [Instr.wellFormed, Instr.isHit]⟩

end EncodingShape

end Sys2Proof.Laws
end

