-- ==== Sys2Proof/Tests/Slice0.lean ====
section
/-! SUPPORT. Tests. The expected results are the spec's: the vectors of 95_test_vectors.md (W, V) and the encodings of
30_encoding.md. The theorems `test_witness_…` meet the hypotheses of the statement they name. -/

namespace Sys2Proof.Tests

open Sys2Proof Machine Safety

/-! ## Small states and what a test looks at -/

/-- A running block with these registers and this script of answers. -/
def sel (m : Mode) (i : Nat) (answers : List Answer) : State :=
  { State.reset with mode := m, index := i, answers := answers }

/-- A block with these bytes in BUF that is offered these events. -/
def fed (buf : List Byte) (evs : List InEvent) : State := { State.reset with buf := buf, inEvents := evs }

/-- The state with EMPTY_POLICY = FAULT. -/
def faulting (s : State) : State := { s with params := { s.params with emptyPolicy := .fault } }

/-- The state with a finite RAWBUF_CAP. -/
def capped (cap : Nat) (s : State) : State := { s with params := { s.params with rawbufCap := some cap } }

/-- A snapshot answer. -/
def snap (dev app : List Vol) : Answer := .snap ⟨dev, app⟩

/-- A frame of the decoder's answer, none where it refuses. -/
def dec (bs : List Byte) : Option Instr :=
  match decode bs with
  | .ok i => some i
  | .error _ => none

/-- One observation of the next state, none where there is none. -/
def seen {α : Type} (f : State → α) : Host.Outcome State Fault Refusal → Option α
  | .next s => some (f s)
  | .fault _ => none
  | .refused _ => none

/-- The fault of an outcome. -/
def stop : Host.Outcome State Fault Refusal → Option Fault
  | .next _ => none
  | .fault r => some r
  | .refused _ => none

/-! ## WellFormed refuses -/

theorem test_illformed_byte_end_marker : (Instr.byte 0xFE#8).wellFormed = false := by decide
theorem test_illformed_btnOther_next : (Instr.btnOther 0x0001#16).wellFormed = false := by decide
theorem test_illformed_btnOther_toggle : (Instr.btnOther 0x0002#16).wellFormed = false := by decide
theorem test_illformed_btnOther_prev : (Instr.btnOther 0x0008#16).wellFormed = false := by decide
theorem test_illformed_kindOther_sensor : (Instr.kindOther 0xF0#8 0x1234#16).wellFormed = false := by decide
theorem test_illformed_kindOther_buttons : (Instr.kindOther 0xF1#8 0x1234#16).wellFormed = false := by decide
theorem test_wellformed_btnOther_high_byte : (Instr.btnOther 0x0101#16).wellFormed = true := by decide

/-! ## Decoding: words written out from 30_encoding.md section 5 -/

theorem test_decode_byte : dec [0b01000110#8] = some (.byte 0x46#8) := by decide
theorem test_decode_end : dec [0b11111110#8] = some .endByte := by decide
theorem test_decode_sensor :
    dec [0b11111111#8, 0b11110000#8, 0b00000011#8, 0b10000001#8, 0b11111110#8] = some (.sensor 0x0381#16) := by decide
theorem test_decode_next :
    dec [0b11111111#8, 0b11110001#8, 0b00000000#8, 0b00000001#8, 0b11111110#8] = some .next := by decide
theorem test_decode_toggle :
    dec [0b11111111#8, 0b11110001#8, 0b00000000#8, 0b00000010#8, 0b11111110#8] = some .toggle := by decide
theorem test_decode_prev :
    dec [0b11111111#8, 0b11110001#8, 0b00000000#8, 0b00001000#8, 0b11111110#8] = some .prev := by decide
theorem test_decode_btnOther :
    dec [0b11111111#8, 0b11110001#8, 0b00000001#8, 0b00000010#8, 0b11111110#8] = some (.btnOther 0x0102#16) := by decide
theorem test_decode_kindOther :
    dec [0b11111111#8, 0b00000111#8, 0b00010010#8, 0b00110100#8, 0b11111110#8] = some (.kindOther 0x07#8 0x1234#16) := by decide
/-- R72: byte 0 is not 0xFF; V-F15. -/
theorem test_decode_refuses_start : dec [0xFE#8, 0xF0#8, 0x01#8, 0x02#8, 0xFE#8] = none := by decide
/-- R72: byte 4 is not 0xFE; V-F14. -/
theorem test_decode_refuses_end : dec [0xFF#8, 0xF0#8, 0x01#8, 0x02#8, 0xFD#8] = none := by decide
/-- R70: there is no other length. -/
theorem test_decode_refuses_length : dec [0xFF#8, 0xF0#8, 0x01#8, 0xFE#8] = none := by decide
/-- R71: the table's word has byte 0 in its bits [39:32]. -/
theorem test_table_word_sensor : decodeTableWord 40 0xFFF00381FE = some (.sensor 0x0381#16) := by decide
theorem test_table_word_end : decodeTableWord 8 0xFE = some .endByte := by decide

/-! ## The scan and the stream bytes (2.1) -/

/-- V-F6 (W3). -/
theorem test_scan_last_match :
    scan [0xFF#8, 0xF0#8, 0x00#8, 0x10#8, 0xFE#8, 0xFF#8, 0xF0#8, 0x00#8, 0x20#8, 0xFE#8] = ⟨some 0x0020#16, none⟩ := by
  decide
/-- V-F8. -/
theorem test_scan_both_kinds :
    scan [0xFF#8, 0xF1#8, 0x00#8, 0x08#8, 0xFE#8, 0xFF#8, 0xF0#8, 0x03#8, 0xFF#8, 0xFE#8]
      = ⟨some 0x03FF#16, some 0x0008#16⟩ := by decide
/-- The buffer of V-F10 under R105: the window at position 2 is the last Sensor frame, of payload 0xFE00
(notes/assumptions/19.md). -/
theorem test_scan_overlapping_windows :
    scan [0xFF#8, 0xF0#8, 0xFF#8, 0xF0#8, 0xFE#8, 0x00#8, 0xFE#8] = ⟨some 0xFE00#16, none⟩ := by decide
/-- V-F20. -/
theorem test_byte_appends :
    seen (fun t => (t.buf, t.out)) (exec (.byte 0x34#8) (fed [0x12#8] [])) = some ([0x12#8, 0x34#8], []) := by decide
/-- V-F25: with RAWBUF_CAP = 5 the oldest byte is dropped. -/
theorem test_byte_drops_oldest :
    seen (·.buf) (exec (.byte 0x06#8) (capped 5 (fed [0x01#8, 0x02#8, 0x03#8, 0x04#8, 0x05#8] [])))
      = some [0x02#8, 0x03#8, 0x04#8, 0x05#8, 0x06#8] := by decide
/-- V-F24: a Buttons frame without a transition is a hit. -/
theorem test_end_clears_on_btnOther :
    seen (fun t => (t.buf, t.queries, t.out)) (exec .endByte (fed [0xFF#8, 0xF1#8, 0x00#8, 0x04#8] []))
      = some ([], 0, []) := by decide
/-- V-F22: a KIND_OTHER frame is kept. -/
theorem test_end_keeps_kindOther :
    seen (·.buf) (exec .endByte (fed [0xFF#8, 0x07#8, 0x12#8, 0x34#8] []))
      = some [0xFF#8, 0x07#8, 0x12#8, 0x34#8, 0xFE#8] := by decide
/-- 70_reset_and_hazards.md R236: a payload byte 0xFE makes a false frame, which clears BUF. -/
theorem test_false_frame_clears :
    seen (fun t => (t.buf, t.queries)) (exec .endByte (fed [0xFF#8, 0xF1#8, 0xFF#8, 0xF0#8] [])) = some ([], 0) := by decide

/-! ## The scaler and the guards (2.2 to 2.4) -/

/-- W4b as corrected by 90_conflicts.md C3. -/
theorem test_scaler_1023 : (finalVolume 1023#16).toNat = 65471 := by decide
/-- R131. -/
theorem test_scaler_65535 : (finalVolume 65535#16).toNat = 4194176 := by decide
/-- V-D3: the negative boundary is accepted. -/
theorem test_sensor_device_accepts :
    seen (·.out) (exec (.sensor 0x0200#16) (sel .device 0 [snap [42767#32] []]))
      = some [.cmd (.devSet 0 32767#32)] := by decide
/-- V-D10: a stale index, and a rejection. -/
theorem test_sensor_device_stale :
    seen (fun t => (t.index, t.out)) (exec (.sensor 0x0200#16) (sel .device 3 [snap [100#32, 200#32] []]))
      = some (3, [.evt (.reject .device 32767#32 200#32)]) := by decide

/-! ## The selection (2.5) -/

/-- V-B1 (W7a). -/
theorem test_next_wraps :
    seen (fun t => (t.mode, t.index)) (exec .next (sel .device 2 [snap [1#32, 2#32, 3#32] []]))
      = some (.device, 0) := by decide
/-- V-B2. -/
theorem test_next_steps :
    seen (·.index) (exec .next (sel .device 0 [snap [1#32, 2#32, 3#32] []])) = some 1 := by decide
/-- V-B3 (W7b). -/
theorem test_prev_wraps :
    seen (·.index) (exec .prev (sel .device 0 [snap [1#32, 2#32, 3#32] []])) = some 2 := by decide
/-- V-B9: from a stale index. -/
theorem test_prev_stale :
    seen (·.index) (exec .prev (sel .device 4 [snap [1#32, 2#32, 3#32] []])) = some 1 := by decide
/-- V-B5 (W8). -/
theorem test_toggle_clamps :
    seen (fun t => (t.mode, t.index)) (exec .toggle (sel .app 4 [snap [1#32, 2#32] [1#32, 2#32, 3#32, 4#32, 5#32]]))
      = some (.device, 1) := by decide
/-- V-B13: under FAULT nothing is written before the raise. -/
theorem test_toggle_faults :
    seen (fun t => (t.mode, t.index, t.halt, t.haltCause))
      (exec .toggle (faulting (sel .device 1 [snap [5#32, 6#32] []]))) = some (.device, 1, true, .empty) := by decide
/-- V-B16: two bits set, and no query. -/
theorem test_btnOther_two_bits :
    seen (fun t => (t.index, t.queries, t.out)) (exec (.btnOther 0x0003#16) (sel .device 0 [.fail]))
      = some (0, 0, []) := by decide
/-- V-F22: no output, BUF as it stands. -/
theorem test_kindOther_silent :
    seen (fun t => (t.buf, t.out)) (exec (.kindOther 0x07#8 0x1234#16) (fed [0xFF#8] [])) = some ([0xFF#8], []) := by decide

/-! ## Errors, reset, and the placing of a word (2.6) -/

/-- V-E4. -/
theorem test_reset_leaves_halt :
    seen (fun t => (t.buf, t.mode, t.index, t.halt, t.haltCause))
      (step { fed [0xFF#8] [.reset] with mode := .app, index := 3, halt := true, haltCause := .backend })
      = some ([], .device, 0, false, .none) := by decide
/-- V-D9: a failed query halts with cause 2. -/
theorem test_failed_query_halts :
    seen (fun t => (t.halt, HaltCause.code t.haltCause, t.out)) (exec (.sensor 0x0100#16) (sel .device 0 [.fail]))
      = some (true, 2#2, [.evt (.halted .backend)]) := by decide
/-- R130: the word of SENSOR 0x0200, placed where the host answers {dev=[30000]}, is run by the next step. -/
theorem test_placed_sensor_runs :
    seen (fun t => (t.buf, t.out)) (step ((sel .device 0 [snap [30000#32] []]).withFetchWord 40 0xFFF00200FE))
      = some ([], [.cmd (.devSet 0 32767#32)]) := by decide
/-- The word of NEXT, placed at reset, is run by the next step whatever the free answer of the host is. -/
theorem test_placed_next_runs : ∃ t, step (State.reset.withFetchWord 40 0xFFF10001FE) = .next t := ⟨_, rfl⟩
/-- The word of BYTE, placed at reset, is run by the next step. -/
theorem test_placed_byte_runs : seen (·.buf) (step (State.reset.withFetchWord 8 0x00)) = some [0x00#8] := by decide

/-! ## Witnesses: concrete states and operands that meet the hypotheses of a statement -/

theorem test_witness_DecodeInvertsEncode :
    (Instr.kindOther 0xFF#8 0xFEFF#16).wellFormed = true := by decide

theorem test_witness_EncodeInvertsDecode :
    decode [0xFF#8, 0xF1#8, 0xFF#8, 0xFE#8, 0xFE#8] = .ok (.btnOther 0xFFFE#16) := rfl

theorem test_witness_StepRunsTheStreamByte :
    (fed [] [.byte 0xFE#8]).halt = false ∧ (fed [] [.byte 0xFE#8]).inEvents = .byte 0xFE#8 :: [] ∧
      decode [0xFE#8] = .ok .endByte := ⟨rfl, rfl, rfl⟩

theorem test_witness_StepRunsTheCompletedFrame :
    let s := fed [0xFF#8, 0xF0#8, 0x02#8, 0x00#8] [.byte 0xFE#8]
    s.halt = false ∧ s.params.legal = true ∧ NoRecognized s.buf ∧ 4 ≤ s.buf.length ∧
      s.inEvents = .byte 0xFE#8 :: [] ∧
      decode (lastBytes 4 s.buf ++ [0xFE#8]) = .ok (.sensor 0x0200#16) := 
  ⟨rfl, rfl, (Laws.noRecognized_iff _).mpr (by decide), by decide, rfl, rfl⟩

theorem test_witness_PlacedWordIsRunNext :
    State.reset.halt = false ∧ State.reset.params.legal = true ∧ decodeTableWord 40 0xFFF10001FE = some .next := 
  ⟨rfl, rfl, by decide⟩

theorem test_witness_ResetWritesEveryRegister :
    ({ fed [0xFF#8] [.reset] with halt := true } : State).inEvents = .reset :: [] := rfl

theorem test_witness_HaltedBlockHasNoStep :
    let s : State := { fed [] [.byte 0xFF#8] with halt := true, haltCause := .backend }
    s.halt = true ∧ ∀ rest, s.inEvents ≠ .reset :: rest := ⟨rfl, by simp [fed]⟩

theorem test_witness_HaltedBlockHasNoStep_nothing_offered :
    let s : State := { fed [] [] with halt := true, haltCause := .backend }
    s.halt = true ∧ ∀ rest, s.inEvents ≠ .reset :: rest := ⟨rfl, by simp [fed]⟩

/-- V-E1. -/
theorem test_witness_StreamErrorHaltsTheBlock :
    (fed [0xFF#8, 0xF0#8] [.streamError]).halt = false ∧
      (fed [0xFF#8, 0xF0#8] [.streamError]).inEvents = .streamError :: [] := ⟨rfl, rfl⟩

theorem test_witness_NoEventNoStep :
    State.reset.halt = false ∧ State.reset.inEvents = [] := ⟨rfl, rfl⟩

theorem test_witness_MakeRoomDropsTheOldestByte :
    (capped 5 State.reset).params.rawbufCap = some 5 ∧ State.reset.params.rawbufCap = none := ⟨rfl, rfl⟩

theorem test_witness_ByteOnlyAppends :
    (0xFF#8 : Byte) ≠ 0xFE#8 := by decide

/-- W1, at the boundary: four bytes with the end marker. -/
theorem test_witness_EndOnShortBufferOnlyAppends :
    (appended (fed [0xFF#8, 0xF0#8, 0x00#8] []) 0xFE#8).length < 5 := by decide

/-- V-F22. -/
theorem test_witness_EndWithoutHitKeepsTheBuffer :
    NoRecognized (appended (fed [0xFF#8, 0x07#8, 0x12#8, 0x34#8] []) 0xFE#8) := 
  (Laws.noRecognized_iff _).mpr (by decide)

/-- Both clauses; W2. -/
theorem test_witness_EndRunsItsOnePacket :
    scan (appended (fed [0xFF#8, 0xF0#8, 0x02#8, 0x00#8] []) 0xFE#8) = ⟨some 0x0200#16, none⟩ ∧
      scan (appended (fed [0xFF#8, 0xF1#8, 0x00#8, 0x01#8] []) 0xFE#8) = ⟨none, some 0x0001#16⟩ := ⟨rfl, rfl⟩

/-- The buffer of V-F7 before its last byte, which no stream leaves there (R112). -/
theorem test_witness_EndRunsSensorThenButtons :
    let s : State := { fed [0xFF#8, 0xF0#8, 0x00#8, 0x10#8, 0xFE#8, 0xFF#8, 0xF1#8, 0x00#8, 0x02#8] [] with
      answers := [snap [1#32] [2#32]] }
    s.halt = false ∧ scan (appended s 0xFE#8) = ⟨some 0x0010#16, some 0x0002#16⟩ ∧
      seen (·.halt) (exec (.sensor 0x0010#16) { s with buf := [] }) = some false := ⟨rfl, rfl, by decide⟩

theorem test_witness_EndRunsSensorThenButtons_fault :
    let s : State := { fed [0xFF#8, 0xF0#8, 0x00#8, 0x10#8, 0xFE#8, 0xFF#8, 0xF1#8, 0x00#8, 0x02#8] [] with
      answers := [snap [1#32, 2#32] []], params := { State.reset.params with wIdx := 1 } }
    s.halt = false ∧ scan (appended s 0xFE#8) = ⟨some 0x0010#16, some 0x0002#16⟩ ∧
      stop (exec (.sensor 0x0010#16) { s with buf := [] }) = some .hostListTooLong := ⟨rfl, rfl, by decide⟩

theorem test_witness_StepLeavesNoRecognizedWindow :
    NoRecognized (fed [0x12#8] [.byte 0xFE#8]).buf ∧
      step (fed [0x12#8] [.byte 0xFE#8]) = .next (fed [0x12#8, 0xFE#8] []) := 
  ⟨(Laws.noRecognized_iff _).mpr (by decide), rfl⟩

theorem test_witness_PassSeesOnlyTheLastWindow :
    NoRecognized [0xFF#8, 0xF0#8, 0x02#8, 0x00#8] ∧ 4 ≤ ([0xFF#8, 0xF0#8, 0x02#8, 0x00#8] : List Byte).length := 
  ⟨(Laws.noRecognized_iff _).mpr (by decide), by decide⟩

/-- At the least legal capacity, with an older byte already dropped. -/
theorem test_witness_FiniteCapacityRefinesUnbounded :
    let t := fed [0x00#8, 0x01#8, 0x02#8, 0x03#8, 0x04#8, 0x05#8] [.byte 0xFE#8]
    let s := capped 5 (fed [0x01#8, 0x02#8, 0x03#8, 0x04#8, 0x05#8] [.byte 0xFE#8])
    5 ≤ 5 ∧ NoRecognized t.buf ∧ CapRefines 5 s t := 
  ⟨by decide, (Laws.noRecognized_iff _).mpr (by decide), ⟨rfl, rfl, rfl, rfl, rfl, rfl, rfl, rfl, rfl, rfl⟩, rfl, rfl, by decide⟩

theorem test_witness_OlderBytesAreNeverObserved :
    SameTail (capped 5 (fed [0x07#8, 0x01#8, 0x02#8, 0x03#8, 0x04#8] [.byte 0xFE#8]))
      (fed [0x01#8, 0x02#8, 0x03#8, 0x04#8] [.byte 0xFE#8]) := 
  ⟨⟨rfl, rfl, rfl, rfl, rfl, rfl, rfl, rfl, rfl, rfl⟩, by decide, rfl, rfl, (Laws.noRecognized_iff _).mpr (by decide),
    (Laws.noRecognized_iff _).mpr (by decide)⟩

/-- P1, lines 1 and 2. -/
theorem test_witness_CleanFrameIsReceived :
    let s := fed [0x13#8, 0x37#8] [.byte 0xFF#8, .byte 0xF0#8, .byte 0x02#8, .byte 0x00#8, .byte 0xFE#8]
    s.halt = false ∧ s.params.legal = true ∧ NoRecognized s.buf ∧ (Instr.sensor 0x0200#16).wellFormed = true ∧
      (Instr.sensor 0x0200#16).isHit = true ∧ 0xFE#8 ∉ (encode (.sensor 0x0200#16)).take 4 ∧
      s.inEvents = (encode (.sensor 0x0200#16)).map InEvent.byte ++ [] := 
  ⟨rfl, rfl, (Laws.noRecognized_iff _).mpr (by decide), rfl, rfl, by decide, rfl⟩

theorem test_witness_BufferBytesAreNeverEdited :
    step (fed [0x12#8] [.byte 0x34#8]) = .next (fed [0x12#8, 0x34#8] []) := rfl

/-- R138's boundaries. -/
theorem test_witness_AppGuardBoundsTheNumerator :
    appRejects (-6554) = true ∧ appRejects (-6553) = false ∧ appRejects 6553 = false ∧ appRejects 6554 = true := by decide

/-- A stale index. -/
theorem test_witness_SensorSetsOrRejectsADevice :
    let s := sel .device 3 [snap [100#32, 22767#32] []]
    HostGives s (.snap ⟨[100#32, 22767#32], []⟩) ∧ s.mode = .device ∧
      ([100#32, 22767#32] : List Vol)[min s.index (2 - 1)]? = some 22767#32 := ⟨⟨rfl, by decide⟩, rfl, rfl⟩

/-- Where its two outcomes meet: V-D1, V-D2. -/
theorem test_witness_SensorSetsOrRejectsADevice_boundaries :
    seen (·.out) (exec (.sensor 0x0200#16) (sel .device 0 [snap [22767#32] []])) = some [.cmd (.devSet 0 32767#32)] ∧
      seen (·.out) (exec (.sensor 0x0200#16) (sel .device 0 [snap [22766#32] []]))
        = some [.evt (.reject .device 32767#32 22766#32)] := by decide

/-- W9. -/
theorem test_witness_SensorAdjustsOrRejectsAnApp :
    let s := sel .app 0 [snap [] [30000#32]]
    HostGives s (.snap ⟨[], [30000#32]⟩) ∧ s.mode = .app ∧ ([30000#32] : List Vol)[min s.index (1 - 1)]? = some 30000#32 ∧
      (2767 : Int) = ((65535 * (0x0200#16 : Half).toNat / 1024 : Nat) : Int) - ((30000#32 : Vol).toNat : Int) := 
  ⟨⟨rfl, by decide⟩, rfl, rfl, by decide⟩

/-- Where its three outcomes meet: |d| = 6554 and 6553 (R138), d = 0 (R139). -/
theorem test_witness_SensorAdjustsOrRejectsAnApp_boundaries :
    seen (·.out) (exec (.sensor 0x0200#16) (sel .app 0 [snap [] [26213#32]])) = some [.evt (.reject .app 32767#32 26213#32)] ∧
      seen (·.out) (exec (.sensor 0x0200#16) (sel .app 0 [snap [] [26214#32]])) = some [.cmd (.appInc 0 6553#16)] ∧
      seen (·.out) (exec (.sensor 0x0200#16) (sel .app 0 [snap [] [32767#32]])) = some [.cmd (.appDec 0 0#16)] := by decide

/-- V-A10. -/
theorem test_witness_SensorMeetsAnEmptyList :
    let s := sel .app 0 [snap [1#32] []]
    HostGives s (.snap ⟨[1#32], []⟩) ∧ count ⟨[1#32], []⟩ s.mode = 0 ∧ s.params.emptyPolicy = .recover := 
  ⟨⟨rfl, by decide⟩, rfl, rfl⟩

/-- V-A11. -/
theorem test_witness_SensorMeetsAnEmptyList_fault :
    let s := faulting (sel .app 0 [snap [1#32] []])
    HostGives s (.snap ⟨[1#32], []⟩) ∧ count ⟨[1#32], []⟩ s.mode = 0 ∧ s.params.emptyPolicy = .fault := 
  ⟨⟨rfl, by decide⟩, rfl, rfl⟩

theorem test_witness_SensorQueriesOnceAndHaltsOnFail :
    HostGives (sel .device 0 [.fail]) .fail ∧
      seen (·.queries) (exec (.sensor 0x0100#16) (sel .device 0 [.fail])) = some 1 := ⟨⟨rfl, rfl⟩, by decide⟩

theorem test_witness_SensorEmitsExactlyOneItem :
    let s := sel .device 0 [snap [30000#32] []]
    s.halt = false ∧ seen (·.halt) (exec (.sensor 0x0200#16) s) = some false := ⟨rfl, by decide⟩

/-- Both a stale index and a rejection. -/
theorem test_witness_SensorWritesNoRegister :
    let s := sel .app 5 [snap [] [0#32]]
    s.halt = false ∧ seen (·.halt) (exec (.sensor 0x0200#16) s) = some false := ⟨rfl, by decide⟩

theorem test_witness_NextStepsForwardModuloCount :
    let s := sel .device 2 [snap [1#32, 2#32, 3#32] []]
    HostGives s (.snap ⟨[1#32, 2#32, 3#32], []⟩) ∧ count ⟨[1#32, 2#32, 3#32], []⟩ s.mode = 3 ∧ 0 < 3 := ⟨⟨rfl, by decide⟩, rfl, by decide⟩

theorem test_witness_PrevStepsBackModuloCount :
    let s := sel .device 0 [snap [1#32, 2#32, 3#32] []]
    HostGives s (.snap ⟨[1#32, 2#32, 3#32], []⟩) ∧ count ⟨[1#32, 2#32, 3#32], []⟩ s.mode = 3 ∧ 0 < 3 := ⟨⟨rfl, by decide⟩, rfl, by decide⟩

/-- INDEX at the new count, where the clamp begins. -/
theorem test_witness_ToggleFlipsAndClamps :
    let s := sel .app 2 [snap [1#32, 2#32] []]
    HostGives s (.snap ⟨[1#32, 2#32], []⟩) ∧ Mode.device ≠ s.mode ∧ count ⟨[1#32, 2#32], []⟩ .device = 2 ∧ 0 < 2 := 
  ⟨⟨rfl, by decide⟩, by decide, rfl, by decide⟩

theorem test_witness_ToggleFlipsAndClamps_inside :
    let s := sel .app 1 [snap [1#32, 2#32] []]
    HostGives s (.snap ⟨[1#32, 2#32], []⟩) ∧ Mode.device ≠ s.mode ∧ count ⟨[1#32, 2#32], []⟩ .device = 2 ∧ 0 < 2 := 
  ⟨⟨rfl, by decide⟩, by decide, rfl, by decide⟩

/-- Both clauses. -/
theorem test_witness_TransitionRecoversFromAnEmptyList :
    let s := sel .app 2 [snap [] []]
    HostGives s (.snap ⟨[], []⟩) ∧ s.params.emptyPolicy = .recover ∧ count ⟨[], []⟩ s.mode = 0 ∧
      Mode.device ≠ s.mode ∧ count ⟨[], []⟩ .device = 0 := ⟨⟨rfl, by decide⟩, rfl, rfl, by decide, rfl⟩

/-- All three instructions. -/
theorem test_witness_TransitionHaltsOnAnEmptyList :
    let s := faulting (sel .app 2 [snap [] []])
    HostGives s (.snap ⟨[], []⟩) ∧ s.params.emptyPolicy = .fault ∧ count ⟨[], []⟩ s.mode = 0 ∧
      Mode.device ≠ s.mode ∧ count ⟨[], []⟩ .device = 0 := ⟨⟨rfl, by decide⟩, rfl, rfl, by decide, rfl⟩

theorem test_witness_TransitionQueriesOnceAndHaltsOnFail :
    HostGives (sel .app 1 [.fail]) .fail ∧ seen (·.queries) (exec .toggle (sel .app 1 [.fail])) = some 1 := ⟨⟨rfl, rfl⟩, by decide⟩

/-- NEXT ends in a list of three, TOGGLE in an empty one: both clauses. -/
theorem test_witness_IndexIsInsideTheListAfterATransition :
    let s := sel .device 2 [snap [1#32, 2#32, 3#32] []]
    s.halt = false ∧ HostGives s (.snap ⟨[1#32, 2#32, 3#32], []⟩) ∧
      seen (fun t => (t.halt, t.mode)) (exec .next s) = some (false, .device) ∧
      seen (fun t => (t.halt, t.mode)) (exec .toggle s) = some (false, .app) := ⟨rfl, ⟨rfl, by decide⟩, by decide, by decide⟩

/-- Across the wrap. -/
theorem test_witness_PrevUndoesNext :
    let s := sel .device 2 [snap [1#32, 2#32, 3#32] [], snap [4#32, 5#32, 6#32] [7#32]]
    let t := { s with answers := [snap [4#32, 5#32, 6#32] [7#32]], queries := 1, index := 0 }
    HostGives s (.snap ⟨[1#32, 2#32, 3#32], []⟩) ∧ s.index < 3 ∧ exec .next s = .next t ∧
      HostGives t (.snap ⟨[4#32, 5#32, 6#32], [7#32]⟩) := ⟨⟨rfl, by decide⟩, by decide, rfl, rfl, by decide⟩

/-- Two entries, where W_IDX = 1 admits one. -/
theorem test_witness_OverlongListStopsByName :
    let s : State := { sel .device 0 [snap [1#32, 2#32] []] with params := { State.reset.params with wIdx := 1 } }
    s.answers = snap [1#32, 2#32] [] :: [] ∧ answerFits s.params (snap [1#32, 2#32] []) = false := ⟨rfl, by decide⟩

theorem test_witness_FatalErrorsArePrecise :
    let s := sel .app 1 [.fail]
    Instr.next.isFrame = true ∧ s.halt = false ∧ seen (·.halt) (exec .next s) = some true := ⟨rfl, rfl, by decide⟩

theorem test_witness_FirstFatalCauseIsKept :
    let s := fed [] [.streamError]
    seen (·.halt) (step s) = some true ∧ ∀ rest, s.inEvents ≠ .reset :: rest := ⟨by decide, by simp [fed]⟩

theorem test_witness_FirstFatalCauseIsKept_unchanged :
    let s := fed [] [.byte 0x00#8]
    seen (·.halt) (step s) = some false ∧ ∀ rest, s.inEvents ≠ .reset :: rest := ⟨by decide, by simp [fed]⟩

theorem test_witness_StepOutputsInOrder :
    seen (fun t => (t.halt, t.out)) (step (fed [] [.streamError])) = some (true, [.evt (.halted .transport)]) := by decide

theorem test_witness_StepUsesOneEventAndAtMostTwoAnswers :
    seen (fun t => (t.inEvents, t.queries, t.answers))
      (step { fed [0xFF#8, 0xF1#8, 0x00#8, 0x01#8] [.byte 0xFE#8, .reset] with answers := [.fail, .fail] })
      = some ([.reset], 1, [.fail]) := by decide

/-- V-B7. -/
theorem test_witness_OnlyToggleWritesMode :
    seen (·.mode) (step { fed [0xFF#8, 0xF1#8, 0x00#8, 0x02#8] [.byte 0xFE#8] with answers := [snap [1#32] [7#32]] })
      = some .app := by decide

theorem test_witness_OnlyButtonsWriteIndex :
    seen (·.index) (step { fed [0xFF#8, 0xF1#8, 0x00#8, 0x08#8] [.byte 0xFE#8] with answers := [snap [1#32, 2#32] []] })
      = some 1 := by decide

/-- An end marker that completes a frame, with just the one answer it needs. -/
theorem test_witness_NoByteValueStopsTheBlock :
    let s : State := { fed [0xFF#8, 0xF0#8, 0x02#8, 0x00#8] [.byte 0xFE#8, .byte 0xFF#8] with answers := [snap [30000#32] []] }
    Served s ∧ s.inEvents ≠ [] := 
  ⟨⟨rfl, (Laws.noRecognized_iff _).mpr (by decide), rfl, by decide,
    by intro a ha; simp at ha; subst ha; exact ⟨⟨_, rfl⟩, by decide⟩, by decide⟩, by simp [fed]⟩

theorem test_witness_EveryOfferedByteIsTaken :
    Served { fed [0xFF#8, 0xF0#8, 0x02#8, 0x00#8] [.byte 0xFE#8, .byte 0xFF#8] with answers := [snap [30000#32] []] } := 
  ⟨rfl, (Laws.noRecognized_iff _).mpr (by decide), rfl, by decide,
    by intro a ha; simp at ha; subst ha; exact ⟨⟨_, rfl⟩, by decide⟩, by decide⟩

/-- V-F25: BUF full at the least legal capacity. -/
theorem test_witness_StepKeepsTheInvariant :
    let s := capped 5 (fed [0x01#8, 0x02#8, 0x03#8, 0x04#8, 0x05#8] [.byte 0x06#8])
    Inv s ∧ seen (·.buf) (step s) = some [0x02#8, 0x03#8, 0x04#8, 0x05#8, 0x06#8] := 
  ⟨⟨rfl, by decide, by decide, by decide, by decide, (Laws.noRecognized_iff _).mpr (by decide)⟩, by decide⟩

end Sys2Proof.Tests
end

section
/-! PROOFS. The family 00_scope.md: the stop on an over-long list (O45), and a finite RAWBUF_CAP beside an unbounded
RawBuffer (O23). The idea for O23: s is a view of t in which BUF is cut to its last bytes and RAWBUF_CAP is written over.
Nothing past the scan reads either of the two, so every operation commutes with such a view; the framer does too, because
the one window a new byte completes lies within the last five bytes. -/

namespace Sys2Proof.Proofs

open Sys2Proof Machine Config Safety Laws

/-! ## The stop on an over-long list (R5, R41) -/

theorem withSnapshot_overlong (op : Snapshot → State → Flow) {s : State}
    (h : answerFits s.params (hostAnswer s) = false) : withSnapshot op s = .error .hostListTooLong := by
  simp [withSnapshot, query_eq, h]

theorem hostAnswer_scripted {s : State} {a : Answer} {rest : List Answer} (h : s.answers = a :: rest) :
    hostAnswer s = a := by
  simp [hostAnswer, h]

/-- Settles O45: each of the four instructions is its operation on a snapshot, and the query stops. -/
theorem overlongListStopsByName : Obligations.OverlongListStopsByName := by
  intro s a rest i hs hfit hi
  have hstop : ∀ op, finish (withSnapshot op s) = .fault .hostListTooLong := fun op => by
    rw [withSnapshot_overlong op (by rw [hostAnswer_scripted hs, hfit]), finish_error]
  rcases hi with rfl | rfl | rfl | ⟨p, rfl⟩
  · exact hstop toggleWith
  · exact hstop nextWith
  · exact hstop prevWith
  · exact hstop (sensorWith p)

/-! ## A view of a state through another RawBuffer -/

/-- The state with its BUF read through φ and with RAWBUF_CAP = c; all else is as it was. -/
def rebuffer (φ : List Byte → List Byte) (c : Option Nat) (s : State) : State :=
  { s with buf := φ s.buf, params := { s.params with rawbufCap := c } }

/-- A flow with its state seen through g. -/
def mapFlow (g : State → State) (f : Flow) : Flow := ⟨g f.state, f.raised⟩

@[simp] theorem mapFlow_state (g : State → State) (f : Flow) : (mapFlow g f).state = g f.state := rfl
@[simp] theorem mapFlow_raised (g : State → State) (f : Flow) : (mapFlow g f).raised = f.raised := rfl

section View

variable (φ : List Byte → List Byte) (c : Option Nat)

@[simp] theorem rebuffer_buf (s : State) : (rebuffer φ c s).buf = φ s.buf := rfl
@[simp] theorem rebuffer_mode (s : State) : (rebuffer φ c s).mode = s.mode := rfl
@[simp] theorem rebuffer_index (s : State) : (rebuffer φ c s).index = s.index := rfl
@[simp] theorem rebuffer_halt (s : State) : (rebuffer φ c s).halt = s.halt := rfl
@[simp] theorem rebuffer_haltCause (s : State) : (rebuffer φ c s).haltCause = s.haltCause := rfl
@[simp] theorem rebuffer_inEvents (s : State) : (rebuffer φ c s).inEvents = s.inEvents := rfl
@[simp] theorem rebuffer_answers (s : State) : (rebuffer φ c s).answers = s.answers := rfl
@[simp] theorem rebuffer_queries (s : State) : (rebuffer φ c s).queries = s.queries := rfl
@[simp] theorem rebuffer_out (s : State) : (rebuffer φ c s).out = s.out := rfl
@[simp] theorem rebuffer_rawbufCap (s : State) : (rebuffer φ c s).params.rawbufCap = c := rfl
@[simp] theorem rebuffer_wIdx (s : State) : (rebuffer φ c s).params.wIdx = s.params.wIdx := rfl
@[simp] theorem rebuffer_emptyPolicy (s : State) :
    (rebuffer φ c s).params.emptyPolicy = s.params.emptyPolicy := rfl

@[simp] theorem setMode_rebuffer (m : Mode) (s : State) :
    setMode m (rebuffer φ c s) = rebuffer φ c (setMode m s) := rfl
@[simp] theorem setIndex_rebuffer (i : Nat) (s : State) :
    setIndex i (rebuffer φ c s) = rebuffer φ c (setIndex i s) := rfl
@[simp] theorem emit_rebuffer (o : OutItem) (s : State) : emit o (rebuffer φ c s) = rebuffer φ c (emit o s) := rfl
@[simp] theorem offer_rebuffer (evs : List InEvent) (s : State) :
    offer evs (rebuffer φ c s) = rebuffer φ c (offer evs s) := rfl
@[simp] theorem afterQuery_rebuffer (s : State) : afterQuery (rebuffer φ c s) = rebuffer φ c (afterQuery s) := rfl
@[simp] theorem done_rebuffer (s : State) : done (rebuffer φ c s) = mapFlow (rebuffer φ c) (done s) := rfl
@[simp] theorem fatal_rebuffer (cause : HaltCause) (s : State) :
    fatal cause (rebuffer φ c s) = mapFlow (rebuffer φ c) (fatal cause s) := rfl

theorem clearBuf_rebuffer {φ : List Byte → List Byte} (hφ : φ [] = []) (s : State) :
    clearBuf (rebuffer φ c s) = rebuffer φ c (clearBuf s) := by
  simp [clearBuf, rebuffer, hφ]

theorem doReset_rebuffer {φ : List Byte → List Byte} (hφ : φ [] = []) (s : State) :
    doReset (rebuffer φ c s) = rebuffer φ c (doReset s) := by
  simp [doReset, rebuffer, hφ]

/-! ## Every operation past the scan commutes with a view -/

@[simp] theorem answerFits_rebuffer (s : State) (a : Answer) :
    answerFits (rebuffer φ c s).params a = answerFits s.params a := by
  cases a <;> rfl

@[simp] theorem hostAnswer_rebuffer (s : State) : hostAnswer (rebuffer φ c s) = hostAnswer s := by
  have hclip : ∀ a, clipAnswer (rebuffer φ c s).params a = clipAnswer s.params a := fun a => by cases a <;> rfl
  simp [hostAnswer, hclip]

theorem withSnapshot_rebuffer {op : Snapshot → State → Flow}
    (hop : ∀ S s, op S (rebuffer φ c s) = mapFlow (rebuffer φ c) (op S s)) (s : State) :
    withSnapshot op (rebuffer φ c s) = (withSnapshot op s).map (mapFlow (rebuffer φ c)) := by
  by_cases hf : answerFits s.params (hostAnswer s) = true
  · cases ha : hostAnswer s with
    | fail =>
      rw [withSnapshot_fail ha, withSnapshot_fail (by simpa using ha)]
      rfl
    | snap S =>
      rw [ha] at hf
      rw [withSnapshot_snap ha hf, withSnapshot_snap (by simpa using ha) (by simpa using hf), afterQuery_rebuffer, hop]
      rfl
  · rw [withSnapshot_overlong op (by simpa using hf), withSnapshot_overlong op (by simpa using hf)]
    rfl

theorem sensorWith_rebuffer (p : Half) (S : Snapshot) (s : State) :
    sensorWith p S (rebuffer φ c s) = mapFlow (rebuffer φ c) (sensorWith p S s) := by
  by_cases h0 : count S s.mode = 0
  · cases hp : s.params.emptyPolicy <;> simp [sensorWith, h0, hp]
  · cases hg : guardRejects s.mode (difference (finalVolume p)
        (vol S s.mode (clampIndex s.index (count S s.mode)))) <;> simp [sensorWith, h0, hg]

theorem emptyCase_rebuffer (m : Mode) (flip : Bool) (s : State) :
    emptyCase m flip (rebuffer φ c s) = mapFlow (rebuffer φ c) (emptyCase m flip s) := by
  cases hp : s.params.emptyPolicy with
  | fault => simp [emptyCase, hp]
  | recover => cases flip <;> simp [emptyCase, hp]

theorem toggleWith_rebuffer (S : Snapshot) (s : State) :
    toggleWith S (rebuffer φ c s) = mapFlow (rebuffer φ c) (toggleWith S s) := by
  by_cases h0 : count S s.mode.other = 0
  · simp [toggleWith, h0, emptyCase_rebuffer]
  · by_cases hc : count S s.mode.other ≤ s.index <;> simp [toggleWith, h0, hc]

theorem nextWith_rebuffer (S : Snapshot) (s : State) :
    nextWith S (rebuffer φ c s) = mapFlow (rebuffer φ c) (nextWith S s) := by
  by_cases h0 : count S s.mode = 0
  · simp [nextWith, h0, emptyCase_rebuffer]
  · by_cases hi : clampIndex s.index (count S s.mode) = count S s.mode - 1 <;> simp [nextWith, h0, hi]

theorem prevWith_rebuffer (S : Snapshot) (s : State) :
    prevWith S (rebuffer φ c s) = mapFlow (rebuffer φ c) (prevWith S s) := by
  by_cases h0 : count S s.mode = 0
  · simp [prevWith, h0, emptyCase_rebuffer]
  · by_cases hi : clampIndex s.index (count S s.mode) = 0 <;> simp [prevWith, h0, hi]

theorem sensorOp_rebuffer (p : Half) (s : State) :
    sensorOp p (rebuffer φ c s) = (sensorOp p s).map (mapFlow (rebuffer φ c)) :=
  withSnapshot_rebuffer φ c (sensorWith_rebuffer φ c p) s

theorem buttonOp_rebuffer (code : Half) (s : State) :
    buttonOp code (rebuffer φ c s) = (buttonOp code s).map (mapFlow (rebuffer φ c)) := by
  unfold buttonOp
  split
  · exact withSnapshot_rebuffer φ c (toggleWith_rebuffer φ c) s
  split
  · exact withSnapshot_rebuffer φ c (nextWith_rebuffer φ c) s
  split
  · exact withSnapshot_rebuffer φ c (prevWith_rebuffer φ c) s
  · rfl

/-- The dispatch of a pass neither reads nor writes BUF and RAWBUF_CAP (R120, R145). -/
theorem process_rebuffer (sl : Slots) (s : State) :
    process sl (rebuffer φ c s) = (process sl s).map (mapFlow (rebuffer φ c)) := by
  match sl with
  | ⟨none, none⟩ => rfl
  | ⟨some p, none⟩ => exact sensorOp_rebuffer φ c p s
  | ⟨none, some code⟩ => exact buttonOp_rebuffer φ c code s
  | ⟨some p, some code⟩ =>
    simp only [process, sensorOp_rebuffer]
    cases sensorOp p s with
    | error r => rfl
    | ok f =>
      cases hr : f.raised with
      | true => simp [Except.map, hr]
      | false => simp [Except.map, hr, buttonOp_rebuffer]

end View

/-- The frame of the dispatch, from its commuting with the view that pins BUF and RAWBUF_CAP to what they are. -/
theorem process_keeps_buffer {sl : Slots} {s : State} {f : Flow} (h : process sl s = .ok f) :
    f.state.buf = s.buf ∧ f.state.params.rawbufCap = s.params.rawbufCap := by
  have hpin : process sl s = (process sl s).map (mapFlow (rebuffer (fun _ => s.buf) s.params.rawbufCap)) :=
    process_rebuffer (fun _ => s.buf) s.params.rawbufCap sl s
  rw [h] at hpin
  have hf : f = mapFlow (rebuffer (fun _ => s.buf) s.params.rawbufCap) f := Except.ok.inj hpin
  exact ⟨congrArg (·.state.buf) hf, congrArg (·.state.params.rawbufCap) hf⟩

/-! ## No recognized window after a byte (R111) -/

/-- The one window that a new byte completes ends in that byte (R112). -/
theorem eq_kEnd_of_windowAt_snoc {w : List Byte} {b k hi lo : Byte} (h : WindowAt (lastBytes 4 w ++ [b]) 0 k hi lo) :
    b = kEnd := by
  have hlen : (lastBytes 4 w ++ [b]).length ≤ 5 := by
    simp [lastBytes_length]
  rw [WindowAt, List.drop_zero, List.take_of_length_le hlen] at h
  have hlast := congrArg List.getLast? h
  simpa using hlast

theorem noRecognized_snoc_of_ne_kEnd {w : List Byte} {b : Byte} (hb : b ≠ kEnd) (hw : NoRecognized w) :
    NoRecognized (w ++ [b]) := by
  rw [noRecognized_iff, scan_snoc_of_noRecognized b hw]
  rcases record_cases Slots.empty (lastBytes 4 w ++ [b]) with ⟨_, _, h, -⟩ | ⟨_, _, h, -⟩ | ⟨-, h⟩
  · exact absurd (eq_kEnd_of_windowAt_snoc h) hb
  · exact absurd (eq_kEnd_of_windowAt_snoc h) hb
  · exact h

theorem noRecognized_of_length_lt {w : List Byte} (h : w.length < 5) : NoRecognized w :=
  (noRecognized_iff w).mpr (scanFrom_short _ h)

/-- ByteIn leaves no recognized window: without an end marker none is completed, and a hit clears BUF (R108, R111). -/
theorem byteIn_noRecognized {b : Byte} {s : State} {f : Flow} (hs : NoRecognized s.buf) (h : byteIn b s = .ok f) :
    NoRecognized f.state.buf := by
  rcases byteIn_cases b s with ⟨hb, he⟩ | ⟨-, hl, he⟩ | ⟨-, -, he⟩
  · obtain rfl := Except.ok.inj (he.symm.trans h)
    exact noRecognized_snoc_of_ne_kEnd hb (noRecognized_suffix (roomFor_suffix _ _) hs)
  · obtain rfl := Except.ok.inj (he.symm.trans h)
    exact noRecognized_of_length_lt hl
  · rw [(process_keeps_buffer (he.symm.trans h)).1]
    cases hhit : (scan (pushByte b s).buf).hit with
    | true => exact noRecognized_nil
    | false => exact (noRecognized_iff _).mpr (hit_eq_false.mp hhit)

theorem byteIn_rawbufCap {b : Byte} {s : State} {f : Flow} (h : byteIn b s = .ok f) :
    f.state.params.rawbufCap = s.params.rawbufCap := by
  rcases byteIn_cases b s with ⟨-, he⟩ | ⟨-, -, he⟩ | ⟨-, -, he⟩
  · obtain rfl := Except.ok.inj (he.symm.trans h)
    rfl
  · obtain rfl := Except.ok.inj (he.symm.trans h)
    rfl
  · rw [(process_keeps_buffer (he.symm.trans h)).2]
    split <;> rfl

/-! ## The view through a finite RAWBUF_CAP (R7, R112) -/

/-- The machine with RAWBUF_CAP = cap that stands beside an unbounded one. -/
abbrev capView (cap : Nat) : State → State := rebuffer (lastBytes cap) (some cap)

theorem lastBytes_nil (n : Nat) : lastBytes n [] = [] := List.drop_nil

theorem capRefines_iff {cap : Nat} {s t : State} :
    CapRefines cap s t ↔ t.params.rawbufCap = none ∧ s = capView cap t := by
  constructor
  · rintro ⟨hsame, hfin, hunb, hbuf⟩
    obtain ⟨hmode, hindex, hhalt, hcause, hin, hans, hq, hout, hw, hp⟩ := hsame
    refine ⟨hunb, ?_⟩
    obtain ⟨_, _, _, _, _, _, _, _, _, ⟨_, _, _⟩⟩ := s
    simp_all [rebuffer]
  · rintro ⟨hunb, rfl⟩
    exact ⟨⟨rfl, rfl, rfl, rfl, rfl, rfl, rfl, rfl, rfl, rfl⟩, rfl, hunb, rfl⟩

/-- Room in a buffer of the last n + 1 bytes leaves the last n (R102). -/
theorem roomFor_lastBytes {q : Params} {n : Nat} (hq : q.rawbufCap = some (n + 1)) (w : List Byte) :
    roomFor q (lastBytes (n + 1) w) = lastBytes n w := by
  rw [roomFor_finite _ hq, lastBytes_length]
  by_cases hl : w.length ≤ n
  · rw [if_neg (by omega), lastBytes_of_length_le hl, lastBytes_of_length_le (by omega)]
  · rw [if_pos (by omega), lastBytes, lastBytes, List.tail_drop]
    congr 1
    omega

theorem pushByte_capView {cap : Nat} {t : State} (hcap : 5 ≤ cap) (ht : t.params.rawbufCap = none) (b : Byte) :
    pushByte b (capView cap t) = capView cap (pushByte b t) := by
  obtain ⟨n, rfl⟩ : ∃ n, cap = n + 1 := ⟨cap - 1, by omega⟩
  have hbuf : roomFor (capView (n + 1) t).params (lastBytes (n + 1) t.buf) ++ [b]
      = lastBytes (n + 1) (roomFor t.params t.buf ++ [b]) := by
    rw [roomFor_lastBytes rfl, roomFor_unbounded _ ht, lastBytes_snoc]
  simp only [pushByte, rebuffer_buf, hbuf]
  rfl

/-- A capacity of at least 5 keeps the one window that a new byte completes (R7, R112). -/
theorem scan_lastBytes_snoc {cap : Nat} {w : List Byte} (hcap : 5 ≤ cap) (hw : NoRecognized w) (b : Byte) :
    scan (lastBytes cap (w ++ [b])) = scan (w ++ [b]) := by
  obtain ⟨n, rfl⟩ : ∃ n, cap = n + 1 := ⟨cap - 1, by omega⟩
  rw [lastBytes_snoc, scan_snoc_of_noRecognized b hw,
    scan_snoc_of_noRecognized b (noRecognized_suffix (lastBytes_suffix n w) hw), lastBytes_lastBytes (by omega)]

/-- ByteIn commutes with the view through a finite capacity. -/
theorem byteIn_capView {cap : Nat} {t : State} (hcap : 5 ≤ cap) (ht : t.params.rawbufCap = none)
    (hclean : NoRecognized t.buf) (b : Byte) :
    byteIn b (capView cap t) = (byteIn b t).map (mapFlow (capView cap)) := by
  have hscan : scan (capView cap (pushByte b t)).buf = scan (pushByte b t).buf := by
    rw [rebuffer_buf, pushByte_buf, roomFor_unbounded _ ht]
    exact scan_lastBytes_snoc hcap hclean b
  have hshort : (capView cap (pushByte b t)).buf.length < frameLen ↔ (pushByte b t).buf.length < frameLen := by
    rw [rebuffer_buf, lastBytes_length, frameLen]
    omega
  have hview : (if (scan (pushByte b t).buf).hit then clearBuf (capView cap (pushByte b t))
        else capView cap (pushByte b t))
      = capView cap (if (scan (pushByte b t).buf).hit then clearBuf (pushByte b t) else pushByte b t) := by
    rw [clearBuf_rebuffer _ (lastBytes_nil cap), apply_ite (capView cap)]
  simp only [byteIn, pushByte_capView hcap ht, hscan, hshort, hview, process_rebuffer]
  split
  · rfl
  split <;> rfl

/-! ## The step, by the event in front of IN (R100) -/

theorem step_reset {s : State} {rest : List InEvent} (hev : s.inEvents = .reset :: rest) :
    step s = .next (doReset (offer rest s)) := by
  rw [step, stepEvent, hev]
  rfl

theorem step_streamError {s : State} {rest : List InEvent} (hh : s.halt = false)
    (hev : s.inEvents = .streamError :: rest) : step s = .next (fatal .transport (offer rest s)).state := by
  simp only [step, stepEvent, hev, hh]
  rfl

theorem step_byte {s : State} {b : Byte} {rest : List InEvent} (hh : s.halt = false)
    (hev : s.inEvents = .byte b :: rest) : step s = finish (byteIn b (offer rest s)) := by
  have hrun : ¬ s.halt = true := by simp [hh]
  rw [← exec_decodeStream]
  simp only [step, stepEvent, hev, if_neg hrun]
  rfl

theorem step_idle {s : State} (hh : s.halt = false) (hev : s.inEvents = []) : step s = .fault .awaitingInput := by
  simp [step, stepEvent, hev, hh]

theorem step_halted {s : State} (hh : s.halt = true) (hev : ∀ rest, s.inEvents ≠ .reset :: rest) :
    step s = .fault (.halted s.haltCause) := by
  match hin : s.inEvents with
  | [] => simp [step, stepEvent, hin, hh]
  | .reset :: rest => exact absurd hin (hev rest)
  | .streamError :: rest => simp [step, stepEvent, hin, hh]
  | .byte b :: rest => simp [step, stepEvent, hin, hh]

/-! ## One step in lockstep -/

theorem lockstep_finish {R : State → State → Prop} {g : State → State} {e : Except Fault Flow}
    (hR : ∀ f, e = .ok f → R (g f.state) f.state) : Lockstep R (finish (e.map (mapFlow g))) (finish e) := by
  cases e with
  | error r => rfl
  | ok f => exact hR f rfl

/-- Settles O23: step by step, the machine with the finite capacity is the view of the unbounded one. -/
theorem finiteCapacityRefinesUnbounded : Obligations.FiniteCapacityRefinesUnbounded := by
  intro cap s t hcap hclean hst
  obtain ⟨ht, rfl⟩ := capRefines_iff.mp hst
  by_cases hreset : ∃ rest, t.inEvents = .reset :: rest
  · obtain ⟨rest, hev⟩ := hreset
    rw [step_reset hev, step_reset (s := capView cap t) hev, offer_rebuffer, doReset_rebuffer _ (lastBytes_nil cap)]
    exact ⟨capRefines_iff.mpr ⟨ht, rfl⟩, noRecognized_nil⟩
  have hne : ∀ rest, t.inEvents ≠ .reset :: rest := not_exists.mp hreset
  cases hh : t.halt with
  | true =>
    rw [step_halted hh hne, step_halted (s := capView cap t) hh hne]
    rfl
  | false =>
    match hev : t.inEvents with
    | [] =>
      rw [step_idle hh hev, step_idle (s := capView cap t) hh hev]
      rfl
    | .reset :: rest => exact absurd hev (hne rest)
    | .streamError :: rest =>
      rw [step_streamError hh hev, step_streamError (s := capView cap t) hh hev]
      exact ⟨capRefines_iff.mpr ⟨ht, rfl⟩, hclean⟩
    | .byte b :: rest =>
      rw [step_byte hh hev, step_byte (s := capView cap t) hh hev, offer_rebuffer,
        byteIn_capView (t := offer rest t) hcap ht hclean]
      exact lockstep_finish fun f hf =>
        ⟨capRefines_iff.mpr ⟨(byteIn_rawbufCap hf).trans ht, rfl⟩, byteIn_noRecognized (s := offer rest t) hclean hf⟩

end Sys2Proof.Proofs
end

section
/-! PROOFS. The family 10_state.md: which registers and ports a step writes (O48, O50, O51, O52), the invariant of the state
(O54), runs that take every event (O58), the wait (O13) and host observation (O56). The idea: `OpEffect` says in one
relation all that an operation can do to HALT, HALT_CAUSE, MODE, INDEX and the ports. Each primitive has it and it composes,
so every operation, and the step, has it; the claims about steps are read off from it. -/

namespace Sys2Proof.Proofs

open Sys2Proof Machine Config Safety Laws

/-! ## What an operation can do -/

/-- The operation returned: HALT and HALT_CAUSE are as they were. -/
structure Returned (s : State) (f : Flow) : Prop where
  raised : f.raised = false
  halt : f.state.halt = s.halt
  haltCause : f.state.haltCause = s.haltCause

/-- The operation raised (R206): HALT with a cause, EMPTY only under FAULT (R203), and Halted of that cause emitted last. -/
structure Raised (s : State) (f : Flow) : Prop where
  raised : f.raised = true
  halt : f.state.halt = true
  cause : f.state.haltCause ≠ .none
  empty : f.state.haltCause = .empty → s.params.emptyPolicy = .fault
  out : ∃ before, f.state.out = before ++ [.evt (.halted f.state.haltCause)]

/-- The button codes whose operation writes INDEX (R23). -/
def WritesIndex (k : Option Half) : Prop := ∃ c, k = some c ∧ (c = btnNext ∨ c = btnToggle ∨ c = btnPrev)

/-- What an operation of at most n queries, on behalf of the button code k (or of none), can do to a state. -/
structure OpEffect (n : Nat) (k : Option Half) (s : State) (f : Flow) : Prop where
  params : f.state.params = s.params
  inEvents : f.state.inEvents = s.inEvents
  queries_ge : s.queries ≤ f.state.queries
  queries_le : f.state.queries ≤ s.queries + n
  answers : f.state.answers = s.answers.drop (f.state.queries - s.queries)
  mode : f.state.mode = s.mode ∨ k = some btnToggle
  index : f.state.index = s.index ∨ (f.state.index < 2 ^ s.params.wIdx ∧ WritesIndex k)
  ending : Returned s f ∨ Raised s f

namespace OpEffect

variable {n m : Nat} {k : Option Half} {s : State} {f g : Flow}

theorem mono (h : OpEffect n k s f) (hnm : n ≤ m) : OpEffect m k s f :=
  { h with queries_le := h.queries_le.trans (by omega) }

theorem returned (h : OpEffect n k s f) (hf : f.raised = false) : Returned s f :=
  h.ending.resolve_right fun hr => by simp [hr.raised] at hf

/-- An operation that returned, and then another. -/
theorem trans (hf : OpEffect n k s f) (hret : f.raised = false) (hg : OpEffect m k f.state g) :
    OpEffect (n + m) k s g where
  params := hg.params.trans hf.params
  inEvents := hg.inEvents.trans hf.inEvents
  queries_ge := hf.queries_ge.trans hg.queries_ge
  queries_le := by
    have := hf.queries_le
    have := hg.queries_le
    omega
  answers := by
    have := hf.queries_ge
    have := hg.queries_ge
    rw [hg.answers, hf.answers, List.drop_drop]
    congr 1
    omega
  mode := by
    rcases hg.mode with h | h
    · rw [h]
      exact hf.mode
    · exact .inr h
  index := by
    rcases hg.index with h | h
    · rw [h]
      exact hf.index
    · exact .inr (hf.params ▸ h)
  ending := by
    have hs := hf.returned hret
    rcases hg.ending with h | h
    · exact .inl ⟨h.raised, h.halt.trans hs.halt, h.haltCause.trans hs.haltCause⟩
    · exact .inr { h with empty := fun he => hf.params ▸ h.empty he }

/-! ### The primitives -/

theorem done (k : Option Half) (s : State) : OpEffect 0 k s (done s) :=
  ⟨rfl, rfl, le_rfl, le_rfl, by simp, .inl rfl, .inl rfl, .inl ⟨rfl, rfl, rfl⟩⟩

theorem pushByte (k : Option Half) (b : Byte) (s : State) : OpEffect 0 k s (Machine.done (pushByte b s)) :=
  { done k s with answers := by simp, ending := .inl ⟨rfl, rfl, rfl⟩ }

theorem clearBuf (k : Option Half) (s : State) : OpEffect 0 k s (Machine.done (clearBuf s)) :=
  { done k s with answers := by simp, ending := .inl ⟨rfl, rfl, rfl⟩ }

theorem emit (k : Option Half) (o : OutItem) (s : State) : OpEffect 0 k s (Machine.done (emit o s)) :=
  { done k s with answers := by simp, ending := .inl ⟨rfl, rfl, rfl⟩ }

theorem setMode (m : Mode) (s : State) : OpEffect 0 (some btnToggle) s (Machine.done (setMode m s)) :=
  { done _ s with answers := by simp, mode := .inr rfl, ending := .inl ⟨rfl, rfl, rfl⟩ }

theorem setIndex {i : Nat} (hi : i < 2 ^ s.params.wIdx) (hk : WritesIndex k) :
    OpEffect 0 k s (Machine.done (setIndex i s)) :=
  { done k s with answers := by simp, index := .inr ⟨hi, hk⟩, ending := .inl ⟨rfl, rfl, rfl⟩ }

theorem afterQuery (k : Option Half) (s : State) : OpEffect 1 k s (Machine.done (afterQuery s)) :=
  { done k s with
    queries_ge := by simp
    queries_le := by simp
    answers := by simp
    ending := .inl ⟨rfl, rfl, rfl⟩ }

theorem fatal (k : Option Half) {cause : HaltCause} (hc : cause ≠ .none)
    (he : cause = .empty → s.params.emptyPolicy = .fault) : OpEffect 0 k s (fatal cause s) :=
  { done k s with answers := by simp, ending := .inr ⟨rfl, rfl, hc, he, s.out, rfl⟩ }

end OpEffect

/-! ## The operations, from their primitives -/

theorem count_lt_of_snapshotFits {q : Params} {S : Snapshot} (h : snapshotFits q S = true) (m : Mode) :
    count S m < 2 ^ q.wIdx := by
  simp only [snapshotFits, Bool.and_eq_true, decide_eq_true_eq] at h
  obtain ⟨hdev, happ⟩ := h
  cases m with
  | device => exact hdev
  | app => exact happ

theorem withSnapshot_effect {op : Snapshot → State → Flow} {k : Option Half} {s : State} {f : Flow}
    (hop : ∀ S s, snapshotFits s.params S = true → OpEffect 0 k s (op S s)) (h : withSnapshot op s = .ok f) :
    OpEffect 1 k s f := by
  have hq := OpEffect.afterQuery k s
  rcases withSnapshot_cases op s with he | he | ⟨S, -, hfit, he⟩ <;> rw [he] at h
  · cases h
  · obtain rfl := Except.ok.inj h
    exact hq.trans rfl (.fatal k (by simp) (by simp))
  · obtain rfl := Except.ok.inj h
    exact hq.trans rfl (hop S _ hfit)

theorem sensorWith_effect (k : Option Half) (p : Half) (S : Snapshot) (s : State) :
    OpEffect 0 k s (sensorWith p S s) := by
  rcases sensorWith_cases p S s with ⟨-, hp, he⟩ | ⟨-, -, he⟩ | ⟨-, j, cur, d, -, -, -, ⟨-, he⟩ | ⟨-, he⟩⟩ <;> rw [he]
  · exact .fatal k (by simp) fun _ => hp
  · exact .emit k _ s
  · exact .emit k _ s
  · exact .emit k _ s

theorem emptyCase_effect {k : Option Half} {flip : Bool} (m : Mode) (s : State) (hk : WritesIndex k)
    (hflip : flip = true → k = some btnToggle) : OpEffect 0 k s (emptyCase m flip s) := by
  rcases emptyCase_cases m flip s with ⟨hp, he⟩ | ⟨-, he⟩ <;> rw [he]
  · exact .fatal k (by simp) fun _ => hp
  · have hzero : ∀ u : State, OpEffect 0 k u (done (emit (.evt (.empty m)) (setIndex 0 u))) := fun u =>
      (OpEffect.setIndex (Nat.two_pow_pos _) hk).trans rfl (.emit k _ _)
    cases flip with
    | false => exact hzero s
    | true =>
      obtain rfl := hflip rfl
      exact (OpEffect.setMode m s).trans rfl (hzero _)

theorem writesIndex_toggle : WritesIndex (some btnToggle) := ⟨_, rfl, .inr (.inl rfl)⟩
theorem writesIndex_next : WritesIndex (some btnNext) := ⟨_, rfl, .inl rfl⟩
theorem writesIndex_prev : WritesIndex (some btnPrev) := ⟨_, rfl, .inr (.inr rfl)⟩

theorem toggleWith_effect (S : Snapshot) (s : State) (hS : snapshotFits s.params S = true) :
    OpEffect 0 (some btnToggle) s (toggleWith S s) := by
  have hcount := count_lt_of_snapshotFits hS s.mode.other
  have hmode := OpEffect.setMode s.mode.other s
  rcases toggleWith_cases S s with ⟨-, he⟩ | ⟨-, -, he⟩ | ⟨-, -, he⟩ <;> rw [he]
  · exact emptyCase_effect _ s writesIndex_toggle fun _ => rfl
  · exact hmode.trans rfl (.setIndex ((Nat.sub_le _ 1).trans_lt hcount) writesIndex_toggle)
  · exact hmode

theorem nextWith_effect (S : Snapshot) (s : State) (hS : snapshotFits s.params S = true) :
    OpEffect 0 (some btnNext) s (nextWith S s) := by
  rcases nextWith_cases S s with ⟨-, he⟩ | ⟨-, i, hi, -, he⟩ <;> rw [he]
  · exact emptyCase_effect _ s writesIndex_next (by simp)
  · exact .setIndex (hi.trans (count_lt_of_snapshotFits hS _)) writesIndex_next

theorem prevWith_effect (S : Snapshot) (s : State) (hS : snapshotFits s.params S = true) :
    OpEffect 0 (some btnPrev) s (prevWith S s) := by
  rcases prevWith_cases S s with ⟨-, he⟩ | ⟨-, i, hi, -, he⟩ <;> rw [he]
  · exact emptyCase_effect _ s writesIndex_prev (by simp)
  · exact .setIndex (hi.trans (count_lt_of_snapshotFits hS _)) writesIndex_prev

theorem sensorOp_effect (k : Option Half) {p : Half} {s : State} {f : Flow} (h : sensorOp p s = .ok f) :
    OpEffect 1 k s f :=
  withSnapshot_effect (fun S s _ => sensorWith_effect k p S s) h

theorem buttonOp_effect {c : Half} {s : State} {f : Flow} (h : buttonOp c s = .ok f) : OpEffect 1 (some c) s f := by
  rcases buttonOp_cases c s with ⟨rfl, he⟩ | ⟨rfl, he⟩ | ⟨rfl, he⟩ | ⟨-, -, -, he⟩ <;> rw [he] at h
  · exact withSnapshot_effect toggleWith_effect h
  · exact withSnapshot_effect nextWith_effect h
  · exact withSnapshot_effect prevWith_effect h
  · obtain rfl := Except.ok.inj h
    exact (OpEffect.done _ s).mono (by omega)

/-- How many packets a pass dispatches (R120). -/
def packets (sl : Slots) : Nat := sl.sensor.toList.length + sl.buttons.toList.length

theorem packets_le_two (sl : Slots) : packets sl ≤ 2 :=
  Nat.add_le_add (Option.length_toList_le) (Option.length_toList_le)

/-- The dispatch makes at most one query for each packet of the pass (R120, R133, R162). -/
theorem process_effect {sl : Slots} {s : State} {f : Flow} (h : process sl s = .ok f) :
    OpEffect (packets sl) sl.buttons s f := by
  rcases process_cases sl s with ⟨rfl, he⟩ | ⟨p, rfl, he⟩ | ⟨c, rfl, he⟩ | ⟨p, c, rfl, htwo⟩
  · obtain rfl := Except.ok.inj (he.symm.trans h)
    exact .done _ s
  · exact sensorOp_effect _ (he.symm.trans h)
  · exact buttonOp_effect (he.symm.trans h)
  · rcases htwo with ⟨r, -, he⟩ | ⟨g, hg, -, he⟩ | ⟨g, hg, hret, he⟩ <;> rw [he] at h
    · cases h
    · obtain rfl := Except.ok.inj h
      exact (sensorOp_effect _ hg).mono (by simp [packets])
    · exact (sensorOp_effect _ hg).trans hret (buttonOp_effect h)

/-! ## The framer -/

/-- The slots of the pass that the byte b triggers: empty where b is no end marker (R103, R105). -/
def passSlots (b : Byte) (s : State) : Slots := if b = kEnd then scan (appended s b) else Slots.empty

theorem passSlots_end (s : State) : passSlots kEnd s = scan (appended s kEnd) := if_pos rfl

theorem passSlots_of_ne {b : Byte} (hb : b ≠ kEnd) (s : State) : passSlots b s = Slots.empty := if_neg hb

/-- The state a pass is dispatched in: b appended, and BUF cleared on a hit (R108, R109). -/
def passState (b : Byte) (s : State) : State :=
  if (passSlots b s).hit then clearBuf (pushByte b s) else pushByte b s

/-- ByteIn dispatches the pass of its byte; a pass that is not made, and one on a short buffer, dispatch nothing. -/
theorem byteIn_eq_process (b : Byte) (s : State) : byteIn b s = process (passSlots b s) (passState b s) := by
  have hbuf : (pushByte b s).buf = appended s b := (appended_eq s b).symm
  have hempty (h : passSlots b s = Slots.empty) :
      process (passSlots b s) (passState b s) = .ok (done (pushByte b s)) := by
    rw [passState, h]
    rfl
  rcases byteIn_cases b s with ⟨hb, he⟩ | ⟨rfl, hl, he⟩ | ⟨rfl, -, he⟩ <;> rw [he]
  · rw [hempty (passSlots_of_ne hb s)]
  · rw [hempty]
    rw [passSlots_end, ← hbuf]
    exact scanFrom_short _ hl
  · rw [passState, passSlots_end, hbuf]

theorem passState_effect (k : Option Half) (b : Byte) (s : State) : OpEffect 0 k s (done (passState b s)) := by
  rw [passState]
  split
  · exact (OpEffect.pushByte k b s).trans rfl (.clearBuf k _)
  · exact .pushByte k b s

@[simp] theorem passState_params (b : Byte) (s : State) : (passState b s).params = s.params := by
  rw [passState]
  split <;> rfl

@[simp] theorem passState_answers (b : Byte) (s : State) : (passState b s).answers = s.answers := by
  rw [passState]
  split <;> rfl

theorem passState_buf (b : Byte) (s : State) : (passState b s).buf = [] ∨ (passState b s).buf = appended s b := by
  rw [passState]
  split
  · exact .inl rfl
  · exact .inr (appended_eq s b).symm

theorem byteIn_effect {b : Byte} {s : State} {f : Flow} (h : byteIn b s = .ok f) :
    OpEffect (packets (passSlots b s)) (passSlots b s).buttons s f := by
  rw [byteIn_eq_process] at h
  have heff := (passState_effect _ b s).trans rfl (process_effect h)
  exact heff.mono (Nat.zero_add _).le

theorem byteIn_buf {b : Byte} {s : State} {f : Flow} (h : byteIn b s = .ok f) :
    f.state.buf = [] ∨ f.state.buf = appended s b := by
  rw [byteIn_eq_process] at h
  rw [(process_keeps_buffer h).1]
  exact passState_buf b s

/-! ## The step -/

/-- The code k may act in the step of s on the event ev: it is the one that the pass of an end marker holds. -/
def CodeOfPass (s : State) (ev : InEvent) (k : Option Half) : Prop :=
  k = none ∨ (ev = .byte kEnd ∧ k = (scan (appended s kEnd)).buttons)

/-- What a step that answers s' did: it reset the block, or it took another event of a running block. -/
inductive StepEffect (s s' : State) : Prop
  | reset (rest : List InEvent) (hev : s.inEvents = .reset :: rest) (heq : s' = doReset (offer rest s))
  | event (ev : InEvent) (rest : List InEvent) (k : Option Half) (f : Flow) (hev : s.inEvents = ev :: rest)
      (hrun : s.halt = false) (hk : CodeOfPass s ev k) (heff : OpEffect 2 k (offer rest s) f) (heq : s' = f.state)

theorem step_effect {s s' : State} (h : step s = .next s') : StepEffect s s' := by
  rcases step_cases h with ⟨rest, hev, heq⟩ | ⟨rest, hev, hrun, heq⟩ | ⟨b, rest, f, hev, hrun, hf, heq⟩
  · exact .reset rest hev heq
  · exact .event _ rest none _ hev hrun (.inl rfl) ((OpEffect.fatal none (by simp) (by simp)).mono (by omega)) heq
  · have hk : CodeOfPass s (.byte b) (passSlots b (offer rest s)).buttons := by
      by_cases hb : b = kEnd
      · subst hb
        exact .inr ⟨rfl, congrArg Slots.buttons (passSlots_end (offer rest s))⟩
      · exact .inl (congrArg Slots.buttons (passSlots_of_ne hb (offer rest s)))
    exact .event _ rest _ f hev hrun hk ((byteIn_effect hf).mono (packets_le_two _)) heq

/-- A code that acts in a step is read from an end marker's pass. -/
theorem CodeOfPass.eq_some {s : State} {ev : InEvent} {rest : List InEvent} {k : Option Half} {c : Half}
    (h : CodeOfPass s ev k) (hev : s.inEvents = ev :: rest) (hc : k = some c) :
    (∃ rest, s.inEvents = .byte 0xFE#8 :: rest) ∧ (scan (appended s 0xFE#8)).buttons = some c := by
  rcases h with rfl | ⟨rfl, hk⟩
  · cases hc
  · exact ⟨⟨rest, hev⟩, hk.symm.trans hc⟩

/-- The step leaves BUF, empties it, or appends one byte to it (R101, R102, R108). -/
theorem step_buf {s s' : State} (h : step s = .next s') :
    s'.buf = [] ∨ s'.buf = s.buf ∨ ∃ b, s'.buf = appended s b := by
  rcases step_cases h with ⟨rest, -, rfl⟩ | ⟨rest, -, -, rfl⟩ | ⟨b, rest, f, -, -, hf, rfl⟩
  · exact .inl rfl
  · exact .inr (.inl rfl)
  · exact (byteIn_buf hf).imp_right fun ha => .inr ⟨b, ha⟩

theorem step_noRecognized {s s' : State} (hs : NoRecognized s.buf) (h : step s = .next s') : NoRecognized s'.buf := by
  rcases step_cases h with ⟨rest, -, rfl⟩ | ⟨rest, -, -, rfl⟩ | ⟨b, rest, f, -, -, hf, rfl⟩
  · exact noRecognized_nil
  · exact hs
  · exact byteIn_noRecognized (s := { s with inEvents := rest }) hs hf

theorem step_params {s s' : State} (h : step s = .next s') : s'.params = s.params := by
  cases step_effect h with
  | reset rest hev heq => rw [heq, doReset_params, offer_params]
  | event ev rest k f hev hrun hk heff heq => rw [heq, heff.params, offer_params]

theorem step_keeps_wf {s s' : State} (hq : s.params.legal = true) (hs : Memory.wf s.params s.buf)
    (h : step s = .next s') : Memory.wf s'.params s'.buf := by
  rw [step_params h]
  rcases step_buf h with he | he | ⟨b, he⟩ <;> rw [he]
  · exact wf_nil _
  · exact hs
  · rw [appended_eq]
    exact wf_push b hq hs

/-! ## The invariant (R20, R23, R25, R111, R203) -/

theorem step_index_fits {s s' : State} (hs : s.index < 2 ^ s.params.wIdx) (h : step s = .next s') :
    s'.index < 2 ^ s'.params.wIdx := by
  rw [step_params h]
  cases step_effect h with
  | reset rest hev heq =>
    rw [heq]
    exact Nat.two_pow_pos _
  | event ev rest k f hev hrun hk heff heq =>
    rw [heq]
    rcases heff.index with hi | ⟨hi, -⟩
    · rw [hi]
      exact hs
    · exact hi

/-- HALT_CAUSE is recorded exactly while HALT is 1 (R25), and EMPTY only under FAULT (R203). -/
theorem step_records_cause {s s' : State} (hs : s.halt = true ↔ s.haltCause ≠ .none) (h : step s = .next s') :
    (s'.halt = true ↔ s'.haltCause ≠ .none) ∧ (s'.haltCause = .empty → s'.params.emptyPolicy = .fault) := by
  rw [step_params h]
  cases step_effect h with
  | reset rest hev heq => simp [heq]
  | event ev rest k f hev hrun hk heff heq =>
    rw [heq]
    rcases heff.ending with hret | hraise
    · have hnone : s.haltCause = .none := by simpa [hrun] using hs
      simp [hret.halt, hret.haltCause, hrun, hnone]
    · exact ⟨iff_of_true hraise.halt hraise.cause, hraise.empty⟩

/-- Settles O54: BUF by the laws of the framer, the other registers by what a step can do. -/
theorem stepKeepsTheInvariant : Obligations.StepKeepsTheInvariant := by
  intro s s' hinv h
  obtain ⟨hcause, hempty⟩ := step_records_cause hinv.halt_cause h
  exact {
    params_legal := step_params h ▸ hinv.params_legal
    buf_fits := step_keeps_wf hinv.params_legal hinv.buf_fits h
    index_fits := step_index_fits hinv.index_fits h
    halt_cause := hcause
    empty_cause := hempty
    no_recognized := step_noRecognized hinv.no_recognized h }

/-! ## Which event writes what -/

/-- Settles O48: a step that returned kept HALT and HALT_CAUSE, and one that raised wrote both. -/
theorem firstFatalCauseIsKept : Obligations.FirstFatalCauseIsKept := by
  intro s s' h hne
  cases step_effect h with
  | reset rest hev heq => exact absurd hev (hne rest)
  | event ev rest k f hev hrun hk heff heq =>
    subst heq
    refine ⟨hrun, ?_⟩
    rcases heff.ending with hret | hraise
    · exact .inl ⟨hret.halt, hret.haltCause⟩
    · exact .inr ⟨hraise.halt, hraise.cause, hraise.out⟩

/-- Settles O50: Reset makes no query, and any other step at most one for each of two packets. -/
theorem stepUsesOneEventAndAtMostTwoAnswers : Obligations.StepUsesOneEventAndAtMostTwoAnswers := by
  intro s s' h
  cases step_effect h with
  | reset rest hev heq =>
    subst heq
    exact ⟨⟨_, hev⟩, le_rfl, Nat.le_add_right _ _, by simp, rfl⟩
  | event ev rest k f hev hrun hk heff heq =>
    subst heq
    refine ⟨⟨ev, ?_⟩, heff.queries_ge, heff.queries_le, heff.answers, heff.params⟩
    rw [heff.inEvents, hev, offer_inEvents]

/-- Settles O51: a code that writes MODE is ModeToggle, and it was read from an end marker's pass. -/
theorem onlyToggleWritesMode : Obligations.OnlyToggleWritesMode := by
  intro s s' h hne
  cases step_effect h with
  | reset rest hev heq => exact .inl ⟨rest, hev⟩
  | event ev rest k f hev hrun hk heff heq =>
    subst heq
    exact .inr (hk.eq_some hev (heff.mode.resolve_left hne))

/-- Settles O52: likewise for the three codes that write INDEX. -/
theorem onlyButtonsWriteIndex : Obligations.OnlyButtonsWriteIndex := by
  intro s s' h hne
  cases step_effect h with
  | reset rest hev heq => exact .inl ⟨rest, hev⟩
  | event ev rest k f hev hrun hk heff heq =>
    subst heq
    obtain ⟨-, c, hc, hcode⟩ := heff.index.resolve_left hne
    obtain ⟨hend, hscan⟩ := hk.eq_some hev hc
    exact .inr ⟨hend, c, hscan, hcode⟩

/-! ## A block whose ports give it no error (R80, R200) -/

/-- The next scripted answer of the host is a snapshot that the port admits. -/
def SnapshotNext (s : State) : Prop := ∃ S rest, s.answers = .snap S :: rest ∧ answerFits s.params (.snap S) = true

theorem emptyCase_returns {m : Mode} {flip : Bool} {s : State} (hp : s.params.emptyPolicy = .recover) :
    (emptyCase m flip s).raised = false := by
  simp [emptyCase, hp]

theorem sensorWith_returns (p : Half) (S : Snapshot) {s : State} (hp : s.params.emptyPolicy = .recover) :
    (sensorWith p S s).raised = false := by
  rcases sensorWith_cases p S s with ⟨-, hf, -⟩ | ⟨-, -, he⟩ | ⟨-, j, cur, d, -, -, -, ⟨-, he⟩ | ⟨-, he⟩⟩
  · simp [hp] at hf
  · rw [he, done_raised]
  · rw [he, done_raised]
  · rw [he, done_raised]

theorem toggleWith_returns (S : Snapshot) {s : State} (hp : s.params.emptyPolicy = .recover) :
    (toggleWith S s).raised = false := by
  rcases toggleWith_cases S s with ⟨-, he⟩ | ⟨-, -, he⟩ | ⟨-, -, he⟩ <;> rw [he]
  · exact emptyCase_returns hp
  · rfl
  · rfl

theorem nextWith_returns (S : Snapshot) {s : State} (hp : s.params.emptyPolicy = .recover) :
    (nextWith S s).raised = false := by
  rcases nextWith_cases S s with ⟨-, he⟩ | ⟨-, i, -, -, he⟩ <;> rw [he]
  · exact emptyCase_returns hp
  · rfl

theorem prevWith_returns (S : Snapshot) {s : State} (hp : s.params.emptyPolicy = .recover) :
    (prevWith S s).raised = false := by
  rcases prevWith_cases S s with ⟨-, he⟩ | ⟨-, i, -, -, he⟩ <;> rw [he]
  · exact emptyCase_returns hp
  · rfl

theorem withSnapshot_returns {op : Snapshot → State → Flow} {s : State} (hsnap : SnapshotNext s)
    (hop : ∀ S, (op S (afterQuery s)).raised = false) : ∃ f, withSnapshot op s = .ok f ∧ f.raised = false := by
  obtain ⟨S, rest, hans, hfit⟩ := hsnap
  exact ⟨_, withSnapshot_snap (hostAnswer_scripted hans) hfit, hop S⟩

theorem buttonOp_returns (c : Half) {s : State} (hp : s.params.emptyPolicy = .recover) (hsnap : SnapshotNext s) :
    ∃ f, buttonOp c s = .ok f ∧ f.raised = false := by
  rcases buttonOp_cases c s with ⟨-, he⟩ | ⟨-, he⟩ | ⟨-, he⟩ | ⟨-, -, -, he⟩ <;> rw [he]
  · exact withSnapshot_returns hsnap fun S => toggleWith_returns S hp
  · exact withSnapshot_returns hsnap fun S => nextWith_returns S hp
  · exact withSnapshot_returns hsnap fun S => prevWith_returns S hp
  · exact ⟨_, rfl, rfl⟩

/-- The dispatch of at most one packet returns, given the one snapshot it may ask for. -/
theorem process_returns {sl : Slots} {s : State} (hp : s.params.emptyPolicy = .recover) (hone : packets sl ≤ 1)
    (hsnap : sl ≠ Slots.empty → SnapshotNext s) : ∃ f, process sl s = .ok f ∧ f.raised = false := by
  rcases process_cases sl s with ⟨rfl, he⟩ | ⟨p, rfl, he⟩ | ⟨c, rfl, he⟩ | ⟨p, c, rfl, -⟩
  · exact ⟨_, he, rfl⟩
  · rw [he]
    exact withSnapshot_returns (hsnap (by simp [Slots.empty])) fun S => sensorWith_returns p S hp
  · rw [he]
    exact buttonOp_returns c hp (hsnap (by simp [Slots.empty]))
  · simp [packets] at hone

/-- With no recognized window before the byte, a pass holds at most the packet of the one new window (R112). -/
theorem packets_passSlots_le {b : Byte} {s : State} (hs : NoRecognized s.buf) :
    packets (passSlots b s) ≤ [InEvent.byte b].count (.byte kEnd) := by
  by_cases hb : b = kEnd
  · subst hb
    rw [passSlots_end, appended_eq, scan_snoc_of_noRecognized _ (noRecognized_suffix (roomFor_suffix _ _) hs)]
    rcases record_cases Slots.empty (lastBytes 4 (roomFor s.params s.buf) ++ [kEnd])
      with ⟨_, _, -, h⟩ | ⟨_, _, -, h⟩ | ⟨-, h⟩ <;> rw [h] <;> simp [packets, Slots.empty]
  · rw [passSlots_of_ne hb]
    exact Nat.zero_le _

/-- The end marker in front of IN has its snapshot in front of the script. -/
theorem served_snapshotNext {s : State} (h : Served s) (hend : 0 < endMarkers s) : SnapshotNext s := by
  match hans : s.answers with
  | [] =>
    have := h.enoughAnswers
    simp [hans] at this
    omega
  | a :: rest =>
    obtain ⟨⟨S, rfl⟩, hfit⟩ := h.legalSnapshots a (by simp [hans])
    exact ⟨S, rest, hans, hfit⟩

theorem endMarkers_cons {s : State} {ev : InEvent} {rest : List InEvent} (hev : s.inEvents = ev :: rest) :
    endMarkers s = rest.count (.byte kEnd) + [ev].count (.byte kEnd) := by
  rw [endMarkers, hev, ← List.singleton_append, List.count_append, Nat.add_comm]

/-- A state after a served one is served, where it runs on and each end marker used at most its one answer. -/
theorem served_of_step {s t : State} (h : Served s) {ev : InEvent} (hev : s.inEvents = ev :: t.inEvents)
    (hrun : t.halt = false) (hclean : NoRecognized t.buf) (hparams : t.params = s.params) {n : Nat}
    (hn : n ≤ [ev].count (.byte kEnd)) (hans : t.answers = s.answers.drop n) : Served t where
  running := hrun
  clean := hclean
  recovers := hparams ▸ h.recovers
  noStreamError hmem := h.noStreamError (hev ▸ List.mem_cons_of_mem _ hmem)
  legalSnapshots a ha := by
    rw [hparams]
    exact h.legalSnapshots a (List.mem_of_mem_drop (hans ▸ ha))
  enoughAnswers := by
    have henough := h.enoughAnswers
    rw [endMarkers_cons hev] at henough
    rw [hans, List.length_drop]
    exact Nat.le_sub_of_add_le ((Nat.add_le_add_left hn _).trans henough)

theorem served_byteIn_returns {s : State} (h : Served s) {b : Byte} {rest : List InEvent}
    (hev : s.inEvents = .byte b :: rest) : ∃ f, byteIn b (offer rest s) = .ok f ∧ f.raised = false := by
  have hone : packets (passSlots b (offer rest s)) ≤ 1 :=
    (packets_passSlots_le (s := offer rest s) h.clean).trans List.count_le_length
  rw [byteIn_eq_process]
  refine process_returns (by rw [passState_params]; exact h.recovers) hone fun hne => ?_
  obtain rfl : b = kEnd := by
    by_contra hb
    exact hne (passSlots_of_ne hb _)
  have hsnap : SnapshotNext s := served_snapshotNext h (by simp [endMarkers_cons hev])
  simpa [SnapshotNext] using hsnap

/-- A served block takes the event in front of IN, and is served again. -/
theorem served_step {s : State} (h : Served s) {ev : InEvent} {rest : List InEvent} (hev : s.inEvents = ev :: rest) :
    ∃ t, step s = .next t ∧ t.inEvents = rest ∧ Served t := by
  match ev with
  | .reset =>
    exact ⟨_, step_reset hev, rfl, served_of_step h (n := 0) hev rfl noRecognized_nil rfl (Nat.zero_le _) rfl⟩
  | .streamError => exact absurd (by simp [hev]) h.noStreamError
  | .byte b =>
    obtain ⟨f, hf, hret⟩ := served_byteIn_returns h hev
    have heff := byteIn_effect hf
    have hrest : f.state.inEvents = rest := heff.inEvents
    refine ⟨f.state, by rw [step_byte h.running hev, hf, finish_ok], hrest, ?_⟩
    have hpackets := packets_passSlots_le (b := b) (s := offer rest s) h.clean
    have hqueries : f.state.queries - s.queries ≤ packets (passSlots b (offer rest s)) :=
      Nat.sub_le_iff_le_add'.mpr heff.queries_le
    exact served_of_step h (hrest ▸ hev) ((heff.returned hret).halt.trans h.running)
      (byteIn_noRecognized (s := offer rest s) h.clean hf) heff.params (hqueries.trans hpackets) heff.answers

/-- Settles O58: by induction on the events that IN offers. -/
theorem everyOfferedByteIsTaken : Obligations.EveryOfferedByteIsTaken := by
  intro s hs
  unfold SafeRun
  generalize hin : s.inEvents = evs
  induction evs generalizing s with
  | nil => exact ⟨s, rfl, hin, hs.running⟩
  | cons ev rest ih =>
    obtain ⟨t, hstep, hrest, ht⟩ := served_step hs hin
    obtain ⟨u, hrun, hu⟩ := ih t ht hrest
    exact ⟨u, (run_succ_next rest.length hstep).trans hrun, hu⟩

/-! ## The wait, and host observation (R33, R40) -/

/-- Settles O13: the wait is the rule of the step for an empty IN. -/
theorem noEventNoStep : Obligations.NoEventNoStep := fun _ hrun hin => step_idle hrun hin

/-- Settles O56, register by register. -/
theorem hostReadsTheEncodedRegisters : Obligations.HostReadsTheEncodedRegisters := by
  intro s
  refine ⟨?_, rfl, ?_, ?_, rfl, rfl⟩
  · cases hm : s.mode <;> simp [observe, Mode.bit, hm]
  · cases hh : s.halt <;> simp [observe, hh]
  · cases hc : s.haltCause <;> simp [observe, HaltCause.code, hc]

end Sys2Proof.Proofs
end

section
/-! PROOFS. The family 20_memory.md: the pass with two packets (O19), the five steps of a clean frame (O25), and what a
step does to BUF (O26). The idea for O25: bytes that are no end marker are only appended, so after four of them the last
bytes of BUF are the frame's first four and no window is recognized yet; the one window that the end marker completes is
then the frame. -/

namespace Sys2Proof.Proofs

open Sys2Proof Machine Config Safety Laws

/-! ## BUF after a step (R63) -/

/-- Settles O26: Reset clears BUF, StreamError keeps it, and a byte is handed to ByteIn. -/
theorem bufferBytesAreNeverEdited : Obligations.BufferBytesAreNeverEdited := by
  intro s s' h
  rcases step_cases h with ⟨rest, -, rfl⟩ | ⟨rest, -, -, rfl⟩ | ⟨b, rest, f, hev, -, hf, rfl⟩
  · exact .inr (.inl rfl)
  · exact .inl rfl
  · exact .inr ((byteIn_buf hf).imp_right fun ha => ⟨b, rest, hev, ha⟩)

/-! ## A pass with a hit (R108, R120) -/

/-- On a hit the pass is dispatched with BUF cleared, whatever it held. -/
theorem byteIn_of_hit {b : Byte} {s : State} (h : (passSlots b s).hit = true) :
    byteIn b s = process (passSlots b s) (clearBuf s) := by
  rw [byteIn_eq_process, passState, if_pos h]
  rfl

section TwoPackets

variable {p c : Half} {s : State}

theorem process_two_of_error {r : Fault} (h : sensorOp p s = .error r) : process ⟨some p, some c⟩ s = .error r := by
  simp [process, h]

theorem process_two_of_raised {f : Flow} (h : sensorOp p s = .ok f) (hr : f.raised = true) :
    process ⟨some p, some c⟩ s = .ok f := by
  simp [process, h, hr]

theorem process_two_of_returned {f : Flow} (h : sensorOp p s = .ok f) (hr : f.raised = false) :
    process ⟨some p, some c⟩ s = buttonOp c f.state := by
  simp [process, h, hr]

end TwoPackets

/-- On a running block HALT tells whether an operation raised (R206). -/
theorem OpEffect.halt_eq_raised {n : Nat} {k : Option Half} {s : State} {f : Flow} (h : OpEffect n k s f)
    (hrun : s.halt = false) : f.state.halt = f.raised := by
  rcases h.ending with hret | hraise
  · rw [hret.halt, hret.raised, hrun]
  · rw [hraise.halt, hraise.raised]

/-- Settles O19: HALT after the sensor operation is its raised mark, on which the dispatch decides (D17). -/
theorem endRunsSensorThenButtons : Obligations.EndRunsSensorThenButtons := by
  intro s p c hrun hscan
  have hslots : passSlots kEnd s = ⟨some p, some c⟩ := (passSlots_end s).trans hscan
  have hend : exec .endByte s = finish (process ⟨some p, some c⟩ (clearBuf s)) := by
    rw [← hslots, ← byteIn_of_hit (by rw [hslots]; rfl)]
    rfl
  rw [hend]
  refine ⟨fun t ht => ?_, fun r hr => ?_⟩
  · obtain ⟨f, hf, rfl⟩ := finish_next (e := sensorOp p (clearBuf s)) ht
    rw [(sensorOp_effect none hf).halt_eq_raised hrun]
    cases hr : f.raised with
    | true => rw [process_two_of_raised hf hr, finish_ok, if_pos rfl]
    | false => rw [process_two_of_returned hf hr, exec_decodeButton, if_neg Bool.false_ne_true]
  · have hf : sensorOp p (clearBuf s) = .error r := finish_fault hr
    rw [process_two_of_error hf, finish_error]

/-! ## Bytes that are no end marker (R101, R103) -/

theorem step_byte_of_ne_kEnd {s : State} {b : Byte} {rest : List InEvent} (hrun : s.halt = false) (hb : b ≠ kEnd)
    (hev : s.inEvents = .byte b :: rest) : step s = .next { s with buf := appended s b, inEvents := rest } := by
  have happend : byteIn b (offer rest s) = .ok (done (pushByte b (offer rest s))) := by
    rw [byteIn, if_pos hb]
  rw [step_byte hrun hev, happend, finish_ok, done_state, pushByte_eq]
  rfl

theorem noRecognized_appended_of_ne_kEnd {s : State} {b : Byte} (hb : b ≠ kEnd) (hs : NoRecognized s.buf) :
    NoRecognized (appended s b) := by
  rw [appended_eq]
  exact noRecognized_snoc_of_ne_kEnd hb (noRecognized_suffix (roomFor_suffix _ _) hs)

theorem lastBytes_zero (w : List Byte) : lastBytes 0 w = [] := List.drop_length

theorem run_one (s : State) : run 1 s = step s := by
  cases h : step s with
  | next t => exact run_succ_next 0 h
  | fault r => exact run_succ_fault 0 h
  | refused r => exact run_succ_refused 0 h

/-- Bytes other than 0xFE are taken one step each, and up to five of them stand at the end of BUF, in order, after
what the last bytes were before. -/
theorem run_bytes_of_not_mem_kEnd {w : List Byte} {s : State} {rest : List InEvent} {m : Nat} (n : Nat)
    (hrun : s.halt = false) (hlegal : s.params.legal = true) (hclean : NoRecognized s.buf) (hw : kEnd ∉ w)
    (hm : m + w.length ≤ 5) (hev : s.inEvents = w.map InEvent.byte ++ rest) :
    ∃ buf, run (w.length + n) s = run n { s with buf := buf, inEvents := rest } ∧ NoRecognized buf ∧
      lastBytes (m + w.length) buf = lastBytes m s.buf ++ w := by
  induction w generalizing s m with
  | nil =>
    obtain rfl : s.inEvents = rest := hev
    exact ⟨s.buf, by simp, hclean, by simp⟩
  | cons b w ih =>
    rw [List.length_cons] at hm
    have hb : b ≠ kEnd := Ne.symm (List.ne_of_not_mem_cons hw)
    have hstep := step_byte_of_ne_kEnd hrun hb hev
    have hnext := noRecognized_appended_of_ne_kEnd hb hclean
    obtain ⟨buf, hbuf, hnone, hlast⟩ :=
      ih (s := { s with buf := appended s b, inEvents := w.map InEvent.byte ++ rest }) (m := m + 1)
        hrun hlegal hnext (List.not_mem_of_not_mem_cons hw) (by omega) rfl
    refine ⟨buf, ?_, hnone, ?_⟩
    · rw [List.length_cons, Nat.add_right_comm, run_succ_next _ hstep]
      exact hbuf
    · rw [lastBytes_appended hlegal (by omega), List.append_assoc] at hlast
      rw [List.length_cons, show m + (w.length + 1) = m + 1 + w.length by omega]
      exact hlast

/-! ## The end marker of a frame (R108, R111, R112) -/

/-- With no recognized window in BUF a pass reads the one window of the last four bytes and the end marker. -/
theorem passSlots_end_of_noRecognized {s : State} (hlegal : s.params.legal = true) (hclean : NoRecognized s.buf) :
    passSlots kEnd s = Slots.empty.record (lastBytes 4 s.buf ++ [kEnd]) := by
  rw [passSlots_end, ← lastBytes_appended hlegal le_rfl, appended_eq, lastBytes_snoc]
  exact scan_snoc_of_noRecognized _ (noRecognized_suffix (roomFor_suffix _ _) hclean)

/-- The end marker that completes a recognized window dispatches that window's packet on the cleared buffer. -/
theorem step_end_of_recognized {s : State} {rest : List InEvent} (hrun : s.halt = false)
    (hlegal : s.params.legal = true) (hclean : NoRecognized s.buf) (hev : s.inEvents = .byte kEnd :: rest)
    (hhit : (Slots.empty.record (lastBytes 4 s.buf ++ [kEnd])).hit = true) :
    step s = finish (process (Slots.empty.record (lastBytes 4 s.buf ++ [kEnd]))
      { s with buf := [], inEvents := rest }) := by
  have hslots := passSlots_end_of_noRecognized (s := offer rest s) hlegal hclean
  rw [step_byte hrun hev, byteIn_of_hit (by rw [hslots]; exact hhit), hslots]
  rfl

/-- A recognized frame with no earlier end marker is dispatched by its fifth step. -/
theorem run_frame {s : State} {rest : List InEvent} {k : Byte} {p : Half} (hrun : s.halt = false)
    (hlegal : s.params.legal = true) (hclean : NoRecognized s.buf) (hend : kEnd ∉ (frameBytes k p).take 4)
    (hev : s.inEvents = (frameBytes k p).map InEvent.byte ++ rest)
    (hhit : (Slots.empty.record (frameBytes k p)).hit = true) :
    run 5 s = finish (process (Slots.empty.record (frameBytes k p)) { s with buf := [], inEvents := rest }) := by
  obtain ⟨buf, hfour, hnone, hlast⟩ := run_bytes_of_not_mem_kEnd (m := 0) (rest := .byte kEnd :: rest) 1 hrun hlegal
    hclean hend (by simp [frameBytes]) hev
  rw [lastBytes_zero] at hlast
  have hfirst : lastBytes 4 buf = (frameBytes k p).take 4 := hlast
  have hwindow : lastBytes 4 buf ++ [kEnd] = frameBytes k p := by
    rw [hfirst]
    rfl
  rw [← hwindow] at hhit ⊢
  have hfive := step_end_of_recognized (s := { s with buf := buf, inEvents := .byte kEnd :: rest }) hrun hlegal hnone
    rfl hhit
  rw [← hfive]
  exact hfour.trans (run_one _)

/-! ## The frames that are hits (R77, R78) -/

theorem record_frameBytes_sensor (p : Half) : Slots.empty.record (frameBytes kindSensor p) = ⟨some p, none⟩ := by
  simp [frameBytes, Slots.record, Slots.empty]

theorem record_frameBytes_buttons (c : Half) : Slots.empty.record (frameBytes kindButtons c) = ⟨none, some c⟩ := by
  simp [frameBytes, Slots.record, Slots.empty]

/-- A hit is the Sensor frame of a payload or the Buttons frame of a code. -/
theorem isHit_cases {i : Instr} (hwf : i.wellFormed = true) (hhit : i.isHit = true) :
    (∃ p, i = .sensor p) ∨ ∃ c, i = decodeButton c ∧ encode i = frameBytes kindButtons c := by
  cases i with
  | sensor p => exact .inl ⟨p, rfl⟩
  | next => exact .inr ⟨btnNext, rfl, rfl⟩
  | toggle => exact .inr ⟨btnToggle, rfl, rfl⟩
  | prev => exact .inr ⟨btnPrev, rfl, rfl⟩
  | btnOther c =>
    obtain ⟨hnext, htoggle, hprev⟩ : c ≠ btnNext ∧ c ≠ btnToggle ∧ c ≠ btnPrev := of_decide_eq_true hwf
    exact .inr ⟨c, by rw [decodeButton, if_neg hnext, if_neg htoggle, if_neg hprev], rfl⟩
  | byte b => cases hhit
  | endByte => cases hhit
  | kindOther k p => cases hhit

/-- Settles O25: the frame's run, for each of the two kinds that are hits. -/
theorem cleanFrameIsReceived : Obligations.CleanFrameIsReceived := by
  intro s rest i hrun hlegal hclean hwf hhit hend hev
  rcases isHit_cases hwf hhit with ⟨p, rfl⟩ | ⟨c, rfl, henc⟩
  · rw [run_frame hrun hlegal hclean hend hev (by rw [record_frameBytes_sensor]; rfl), record_frameBytes_sensor]
    rfl
  · rw [henc] at hend hev
    rw [run_frame hrun hlegal hclean hend hev (by rw [record_frameBytes_buttons]; rfl), record_frameBytes_buttons,
      exec_decodeButton]
    rfl

end Sys2Proof.Proofs
end

section
/-! PROOFS. The family 30_encoding.md: the two round trips of the encoding (O1, O2), the decoder beside the opcode table
(O3), a window and its delimiters (O4), the button codes (O5), the step that completes a frame (O8), KIND_OTHER (O27), and
the served block (O53). The idea: what is well formed is what a stream byte or a delimited window reads as, and the
encoding of that reading is the bytes again. -/

namespace Sys2Proof.Proofs

open Sys2Proof Machine Config Safety Laws

/-! ## A frame by its kind and payload (R73 to R77) -/

/-- The instruction of a delimited window, by its kind and payload (R77). -/
def frameInstr (k : Byte) (p : Half) : Instr :=
  if k = kindSensor then .sensor p else if k = kindButtons then decodeButton p else .kindOther k p

@[simp] theorem frameInstr_sensor (p : Half) : frameInstr kindSensor p = .sensor p := rfl

@[simp] theorem frameInstr_buttons (c : Half) : frameInstr kindButtons c = decodeButton c := rfl

theorem frameInstr_kindOther {k : Byte} (hs : k ≠ kindSensor) (hb : k ≠ kindButtons) (p : Half) :
    frameInstr k p = .kindOther k p := by
  rw [frameInstr, if_neg hs, if_neg hb]

theorem decodeButton_btnOther {c : Half} (hc : c ≠ btnNext ∧ c ≠ btnToggle ∧ c ≠ btnPrev) :
    decodeButton c = .btnOther c := by
  obtain ⟨hn, ht, hp⟩ := hc
  rw [decodeButton, if_neg hn, if_neg ht, if_neg hp]

/-- A button code is one of the three with a transition, or it is kept as it is (R75). -/
theorem decodeButton_cases (c : Half) :
    (c = btnNext ∧ decodeButton c = .next) ∨ (c = btnToggle ∧ decodeButton c = .toggle) ∨
    (c = btnPrev ∧ decodeButton c = .prev) ∨
    ((c ≠ btnNext ∧ c ≠ btnToggle ∧ c ≠ btnPrev) ∧ decodeButton c = .btnOther c) := by
  by_cases hn : c = btnNext
  · exact .inl ⟨hn, if_pos hn⟩
  by_cases ht : c = btnToggle
  · exact .inr (.inl ⟨ht, by rw [decodeButton, if_neg hn, if_pos ht]⟩)
  by_cases hp : c = btnPrev
  · exact .inr (.inr (.inl ⟨hp, by rw [decodeButton, if_neg hn, if_neg ht, if_pos hp]⟩))
  · exact .inr (.inr (.inr ⟨⟨hn, ht, hp⟩, decodeButton_btnOther ⟨hn, ht, hp⟩⟩))

/-! ## What the decoder reads (R70, R72, R82) -/

theorem decode_window (b0 b1 b2 b3 b4 : Byte) :
    decode [b0, b1, b2, b3, b4] =
      if b0 = kStart ∧ b4 = kEnd then .ok (frameInstr b1 (payload b2 b3)) else .error .notAFrame := by
  simp only [decode, decodeFrame, frameInstr, ne_eq, ← not_and_or, ite_not, apply_ite Except.ok]

theorem decode_delimited (k hi lo : Byte) :
    decode [kStart, k, hi, lo, kEnd] = .ok (frameInstr k (payload hi lo)) := by
  rw [decode_window, if_pos ⟨rfl, rfl⟩]

theorem frameBytes_payload (k hi lo : Byte) : frameBytes k (payload hi lo) = [kStart, k, hi, lo, kEnd] := by
  rw [frameBytes, payloadHi_payload, payloadLo_payload]

theorem decode_frameBytes (k : Byte) (p : Half) : decode (frameBytes k p) = .ok (frameInstr k p) := by
  rw [frameBytes, decode_delimited, payload_hi_lo]

/-- Bytes that decode are one stream byte or the bytes of a frame. -/
theorem decode_ok {bs : List Byte} {i : Instr} (h : decode bs = .ok i) :
    (∃ b, bs = [b] ∧ i = decodeStream b) ∨ ∃ k p, bs = frameBytes k p ∧ i = frameInstr k p := by
  match bs with
  | [b] => exact .inl ⟨b, rfl, (Except.ok.inj h).symm⟩
  | [b0, b1, b2, b3, b4] =>
    rw [decode_window] at h
    split at h
    next hd =>
      obtain ⟨rfl, rfl⟩ := hd
      exact .inr ⟨b1, payload b2 b3, (frameBytes_payload b1 b2 b3).symm, (Except.ok.inj h).symm⟩
    next => cases h
  | [] | [_, _] | [_, _, _] | [_, _, _, _] | _ :: _ :: _ :: _ :: _ :: _ :: _ => cases h

/-! ## What is read is well formed, and its encoding is the bytes (R71, R82) -/

theorem encode_decodeStream (b : Byte) : encode (decodeStream b) = [b] := by
  by_cases hb : b = kEnd
  · subst hb
    rfl
  · rw [decodeStream, if_neg hb, encode]

theorem wellFormed_decodeStream (b : Byte) : (decodeStream b).wellFormed = true := by
  by_cases hb : b = kEnd
  · subst hb
    rfl
  · rw [decodeStream, if_neg hb]
    exact decide_eq_true hb

theorem encode_decodeButton (c : Half) : encode (decodeButton c) = frameBytes kindButtons c := by
  rcases decodeButton_cases c with ⟨rfl, h⟩ | ⟨rfl, h⟩ | ⟨rfl, h⟩ | ⟨-, h⟩ <;> rw [h, encode]

theorem wellFormed_decodeButton (c : Half) : (decodeButton c).wellFormed = true := by
  rcases decodeButton_cases c with ⟨-, h⟩ | ⟨-, h⟩ | ⟨-, h⟩ | ⟨hc, h⟩ <;> rw [h]
  · rfl
  · rfl
  · rfl
  · exact decide_eq_true hc

/-- A frame is of kind Sensor, of kind Buttons, or of a kind that is not recognized (R77). -/
theorem kind_cases (k : Byte) : k = kindSensor ∨ k = kindButtons ∨ (k ≠ kindSensor ∧ k ≠ kindButtons) := by
  tauto

theorem encode_frameInstr (k : Byte) (p : Half) : encode (frameInstr k p) = frameBytes k p := by
  rcases kind_cases k with rfl | rfl | ⟨hs, hb⟩
  · rfl
  · exact encode_decodeButton p
  · rw [frameInstr_kindOther hs hb, encode]

theorem wellFormed_frameInstr (k : Byte) (p : Half) : (frameInstr k p).wellFormed = true := by
  rcases kind_cases k with rfl | rfl | ⟨hs, hb⟩
  · rfl
  · exact wellFormed_decodeButton p
  · rw [frameInstr_kindOther hs hb]
    exact decide_eq_true ⟨hs, hb⟩

/-- What is well formed is what a stream byte or a frame reads as. -/
theorem exists_reading_of_wellFormed {i : Instr} (h : i.wellFormed = true) :
    (∃ b, i = decodeStream b) ∨ ∃ k p, i = frameInstr k p := by
  cases i with
  | byte b => exact .inl ⟨b, (if_neg (of_decide_eq_true h)).symm⟩
  | endByte => exact .inl ⟨kEnd, rfl⟩
  | sensor p => exact .inr ⟨kindSensor, p, rfl⟩
  | next => exact .inr ⟨kindButtons, btnNext, rfl⟩
  | toggle => exact .inr ⟨kindButtons, btnToggle, rfl⟩
  | prev => exact .inr ⟨kindButtons, btnPrev, rfl⟩
  | btnOther c => exact .inr ⟨kindButtons, c, (decodeButton_btnOther (of_decide_eq_true h)).symm⟩
  | kindOther k p =>
    obtain ⟨hs, hb⟩ : k ≠ kindSensor ∧ k ≠ kindButtons := of_decide_eq_true h
    exact .inr ⟨k, p, (frameInstr_kindOther hs hb p).symm⟩

/-- Settles O1: the instruction is the reading of a stream byte or of a frame, whose encoding is those bytes. -/
theorem decodeInvertsEncode : Obligations.DecodeInvertsEncode := by
  intro i hwf
  rcases exists_reading_of_wellFormed hwf with ⟨b, rfl⟩ | ⟨k, p, rfl⟩
  · rw [encode_decodeStream, decode]
  · rw [encode_frameInstr, decode_frameBytes]

/-- Settles O2, by what the bytes can be. -/
theorem encodeInvertsDecode : Obligations.EncodeInvertsDecode := by
  intro bs i h
  rcases decode_ok h with ⟨b, rfl, rfl⟩ | ⟨k, p, rfl, rfl⟩
  · exact ⟨encode_decodeStream b, wellFormed_decodeStream b⟩
  · exact ⟨encode_frameInstr k p, wellFormed_frameInstr k p⟩

/-! ## A served block (R80, R200) -/

/-- Settles O53: the step of a served block on the event in front of IN. -/
theorem noByteValueStopsTheBlock : Obligations.NoByteValueStopsTheBlock := by
  intro s hs hne
  obtain ⟨ev, rest, hev⟩ := List.exists_cons_of_ne_nil hne
  obtain ⟨t, hstep, -, ht⟩ := served_step hs hev
  exact ⟨t, hstep, ht⟩

/-! ## The opcode table (R71) -/

/-- A word is known by its five bytes. -/
theorem wordBytes_inj {F G : BitVec 40} : wordBytes F = wordBytes G ↔ F = G := by
  refine ⟨fun h => BitVec.eq_of_toNat_eq ?_, congrArg wordBytes⟩
  have hF := F.isLt
  have hG := G.isLt
  simp only [wordBytes, List.cons.injEq, and_true, ← BitVec.toNat_inj, BitVec.extractLsb'_toNat,
    Nat.shiftRight_eq_div_pow] at h
  omega

theorem wordBytes_and (F M : BitVec 40) :
    wordBytes (F &&& M) = List.zipWith (· &&& ·) (wordBytes F) (wordBytes M) := by
  simp [wordBytes, BitVec.extractLsb'_and]

/-- A row is matched byte by byte. -/
theorem and_mask_eq_iff {F M P : BitVec 40} :
    F &&& M = P ↔ List.zipWith (· &&& ·) (wordBytes F) (wordBytes M) = wordBytes P := by
  rw [← wordBytes_inj, wordBytes_and]

theorem byte_and_ff (b : Byte) : b &&& 0xFF#8 = b := BitVec.and_allOnes

theorem map_find?_cons {α β : Type} (f : α → β) (p : α → Bool) (a : α) (l : List α) :
    ((a :: l).find? p).map f = if p a = true then some (f a) else (l.find? p).map f := by
  cases h : p a <;> simp [h]

theorem payload_inj {hi lo hi' lo' : Byte} : payload hi lo = payload hi' lo' ↔ hi = hi' ∧ lo = lo' := by
  constructor
  · intro h
    have hhi := congrArg payloadHi h
    have hlo := congrArg payloadLo h
    rw [payloadHi_payload, payloadHi_payload] at hhi
    rw [payloadLo_payload, payloadLo_payload] at hlo
    exact ⟨hhi, hlo⟩
  · rintro ⟨rfl, rfl⟩
    rfl

/-- The row of a Buttons frame, by its two payload bytes. -/
theorem mnemonic_decodeButton (hi lo : Byte) :
    (decodeButton (payload hi lo)).mnemonic =
      if hi = 0x00 ∧ lo = 0x01 then "NEXT" else if hi = 0x00 ∧ lo = 0x02 then "TOGGLE"
      else if hi = 0x00 ∧ lo = 0x08 then "PREV" else "BTN_OTHER" := by
  have hnext : btnNext = payload 0x00 0x01 := rfl
  have htoggle : btnToggle = payload 0x00 0x02 := rfl
  have hprev : btnPrev = payload 0x00 0x08 := rfl
  simp only [decodeButton, hnext, htoggle, hprev, payload_inj, apply_ite Instr.mnemonic]
  rfl

section FirstRow

variable {F : BitVec 40}

/-- Section 5's first match, with each row's pattern and mask read byte by byte. -/
theorem firstRow_eq {b0 b1 b2 b3 b4 : Byte} (hF : wordBytes F = [b0, b1, b2, b3, b4]) :
    firstRow F =
      if b0 = kStart ∧ b1 = kindSensor ∧ b4 = kEnd then some "SENSOR"
      else if b0 = kStart ∧ b1 = kindButtons ∧ b2 = 0x00 ∧ b3 = 0x01 ∧ b4 = kEnd then some "NEXT"
      else if b0 = kStart ∧ b1 = kindButtons ∧ b2 = 0x00 ∧ b3 = 0x02 ∧ b4 = kEnd then some "TOGGLE"
      else if b0 = kStart ∧ b1 = kindButtons ∧ b2 = 0x00 ∧ b3 = 0x08 ∧ b4 = kEnd then some "PREV"
      else if b0 = kStart ∧ b1 = kindButtons ∧ b4 = kEnd then some "BTN_OTHER"
      else if b0 = kStart ∧ b4 = kEnd then some "KIND_OTHER"
      else none := by
  simp only [firstRow, frameRows, map_find?_cons, and_mask_eq_iff, hF]
  simp [wordBytes, byte_and_ff]

theorem firstRow_delimited {k hi lo : Byte} (hF : wordBytes F = [kStart, k, hi, lo, kEnd]) :
    firstRow F = some (frameInstr k (payload hi lo)).mnemonic := by
  rw [firstRow_eq hF]
  rcases kind_cases k with rfl | rfl | ⟨hs, hb⟩
  · rfl
  · simp [mnemonic_decodeButton, apply_ite some]
  · simp [hs, hb, frameInstr_kindOther hs hb, Instr.mnemonic]

theorem firstRow_not_delimited {b0 b1 b2 b3 b4 : Byte} (hF : wordBytes F = [b0, b1, b2, b3, b4])
    (hd : ¬ (b0 = kStart ∧ b4 = kEnd)) : firstRow F = none := by
  rw [firstRow_eq hF]
  by_cases hstart : b0 = kStart
  · have hend : b4 ≠ kEnd := fun h => hd ⟨hstart, h⟩
    simp [hend]
  · simp [hstart]

end FirstRow

/-- Settles O3: both sides go by the delimiters, and in a delimited word by its kind and payload. -/
theorem decoderFollowsTheOpcodeTable : Obligations.DecoderFollowsTheOpcodeTable := by
  intro F
  obtain ⟨b0, b1, b2, b3, b4, hF⟩ : ∃ b0 b1 b2 b3 b4, wordBytes F = [b0, b1, b2, b3, b4] := ⟨_, _, _, _, _, rfl⟩
  rw [hF]
  by_cases hd : b0 = kStart ∧ b4 = kEnd
  · obtain ⟨rfl, rfl⟩ := hd
    rw [firstRow_delimited hF, decode_delimited]
  · rw [firstRow_not_delimited hF hd, decode_window, if_neg hd]

/-! ## A window and its delimiters, and the button codes (R72, R75) -/

/-- Settles O4: a window is read exactly where it is delimited. -/
theorem windowIsFrameIffDelimited : Obligations.WindowIsFrameIffDelimited := by
  intro b0 b1 b2 b3 b4
  rw [decode_window]
  split
  next hd => exact ⟨fun _ => hd, fun _ => ⟨_, rfl⟩⟩
  next hd => exact ⟨fun ⟨_, h⟩ => (nomatch h), fun h => absurd h hd⟩

/-- Settles O5: the payload is compared as the number its two bytes make. -/
theorem buttonCodeIsComparedWhole : Obligations.ButtonCodeIsComparedWhole := by
  intro hi lo
  have hcode (c : Half) : payload hi lo = c ↔ hi.toNat * 256 + lo.toNat = c.toNat :=
    (payload_eq_iff hi lo c).trans eq_comm
  rw [decode_delimited, frameInstr_buttons, decodeButton]
  simp only [hcode]
  rfl

/-! ## KIND_OTHER, and the end marker that completes a frame (R77, R78, R112) -/

/-- Settles O27: KIND_OTHER returns at once. -/
theorem kindOtherHasNoEffect : Obligations.KindOtherHasNoEffect := by
  intro s k p
  rw [exec, execKindOther, finish_ok, done_state]

/-- The hits are the frames of the two recognized kinds (R79). -/
theorem isHit_decodeButton (c : Half) : (decodeButton c).isHit = true := by
  rcases decodeButton_cases c with ⟨-, h⟩ | ⟨-, h⟩ | ⟨-, h⟩ | ⟨-, h⟩ <;> rw [h, Instr.isHit]

theorem record_frameBytes_kindOther {k : Byte} (hs : k ≠ kindSensor) (hb : k ≠ kindButtons) (p : Half) :
    Slots.empty.record (frameBytes k p) = Slots.empty := by
  simp [frameBytes, Slots.record, hs, hb]

/-- The instruction of a frame is what the dispatch does with the slots of its one window (R77, R107, R120). -/
theorem exec_frameInstr (k : Byte) (p : Half) (s : State) :
    exec (frameInstr k p) s = finish (process (Slots.empty.record (frameBytes k p)) s) := by
  rcases kind_cases k with rfl | rfl | ⟨hs, hb⟩
  · rw [record_frameBytes_sensor]
    rfl
  · rw [record_frameBytes_buttons, frameInstr_buttons, exec_decodeButton]
    rfl
  · rw [record_frameBytes_kindOther hs hb, frameInstr_kindOther hs hb]
    rfl

/-- A frame is a hit for the decoder exactly where it is one for the scan (R79, R108). -/
theorem isHit_frameInstr (k : Byte) (p : Half) :
    (frameInstr k p).isHit = (Slots.empty.record (frameBytes k p)).hit := by
  rcases kind_cases k with rfl | rfl | ⟨hs, hb⟩
  · rw [record_frameBytes_sensor]
    rfl
  · rw [record_frameBytes_buttons, frameInstr_buttons, isHit_decodeButton]
    rfl
  · rw [record_frameBytes_kindOther hs hb, frameInstr_kindOther hs hb]
    rfl

theorem passState_eq (b : Byte) (s : State) :
    passState b s = { s with buf := if (passSlots b s).hit then [] else appended s b } := by
  rw [passState, pushByte_eq]
  split <;> rfl

/-- Settles O8: the pass of the end marker reads the frame alone, and dispatches it in the state the statement names. -/
theorem stepRunsTheCompletedFrame : Obligations.StepRunsTheCompletedFrame := by
  intro s rest i hrun hlegal hclean hlen hev hdec
  have hslots : passSlots kEnd (offer rest s) = Slots.empty.record (lastBytes 4 s.buf ++ [kEnd]) :=
    passSlots_end_of_noRecognized hlegal hclean
  rcases decode_ok hdec with ⟨b, hone, -⟩ | ⟨k, p, hframe, rfl⟩
  · have hfive := congrArg List.length hone
    rw [List.length_append, lastBytes_length, List.length_singleton, List.length_singleton] at hfive
    omega
  · rw [hframe] at hslots
    rw [step_byte hrun hev, byteIn_eq_process, passState_eq, hslots, exec_frameInstr, isHit_frameInstr]
    rfl

end Sys2Proof.Proofs
end

section
/-! PROOFS. The family 40_framer.md: what BUF keeps between steps (O21), the bytes that no step observes (O24), the pass of
an end marker (O16, O17, O18), the scan (O20, O22), the order of a step's items (O49), and the rules of single events (O7,
O9, O12, O14, O15). The idea for O24: the pass of a byte reads the last four bytes of BUF alone, and the dispatch commutes
with a view through another RawBuffer. -/

namespace Sys2Proof.Proofs

open Sys2Proof Machine Config Safety Laws

/-! ## BUF between steps (R111) -/

/-- Settles O21: after reset BUF is empty, and a step leaves no recognized window in it. -/
theorem stepLeavesNoRecognizedWindow : Obligations.StepLeavesNoRecognizedWindow :=
  ⟨noRecognized_nil, fun _ _ hs h => step_noRecognized hs h⟩

/-! ## Two machines whose RawBuffers end alike (R112) -/

theorem sameButBuf_rebuffer (φ : List Byte → List Byte) (c : Option Nat) (t : State) : SameButBuf (rebuffer φ c t) t :=
  ⟨rfl, rfl, rfl, rfl, rfl, rfl, rfl, rfl, rfl, rfl⟩

/-- Machines that agree on all but BUF and RAWBUF_CAP are views of each other. -/
theorem eq_rebuffer_of_sameButBuf {s t : State} (h : SameButBuf s t) :
    s = rebuffer (fun _ => s.buf) s.params.rawbufCap t := by
  obtain ⟨hmode, hindex, hhalt, hcause, hin, hans, hq, hout, hw, hp⟩ := h
  obtain ⟨_, _, _, _, _, _, _, _, _, ⟨_, _, _⟩⟩ := s
  simp_all [rebuffer]

/-- What one step shows of `SameTail`; the rest of it is a matter of each machine alone. -/
structure TailAgrees (s t : State) : Prop where
  same : SameButBuf s t
  tail : lastBytes 4 s.buf = lastBytes 4 t.buf

/-- Outcomes in one relation are in another that the relation implies on the states answered. -/
theorem lockstep_imp {R R' : State → State → Prop} {x y : Host.Outcome State Fault Refusal} (h : Lockstep R x y)
    (himp : ∀ s t, x = .next s → y = .next t → R s t → R' s t) : Lockstep R' x y := by
  cases x with
  | next s =>
    cases y with
    | next t => exact himp s t rfl rfl h
    | fault r => exact h
    | refused r => exact h
  | fault r => cases y <;> exact h
  | refused r => cases y <;> exact h

/-- Two machines that agree on all but the RawBuffer step in a relation that Reset, StreamError and ByteIn lead to. -/
theorem lockstep_step {R : State → State → Prop} {s t : State} (h : SameButBuf s t)
    (hreset : ∀ rest, R (doReset (offer rest s)) (doReset (offer rest t)))
    (herror : ∀ rest, R (fatal .transport (offer rest s)).state (fatal .transport (offer rest t)).state)
    (hbyte : ∀ b rest, Lockstep R (finish (byteIn b (offer rest s))) (finish (byteIn b (offer rest t)))) :
    Lockstep R (step s) (step t) := by
  by_cases hr : ∃ rest, s.inEvents = .reset :: rest
  · obtain ⟨rest, hev⟩ := hr
    rw [step_reset hev, step_reset (h.inEvents ▸ hev)]
    exact hreset rest
  have hne : ∀ rest, s.inEvents ≠ .reset :: rest := not_exists.mp hr
  cases hh : s.halt with
  | true =>
    rw [step_halted hh hne, step_halted (h.halt ▸ hh) (h.inEvents ▸ hne), h.haltCause]
    rfl
  | false =>
    have hht : t.halt = false := h.halt ▸ hh
    match hev : s.inEvents with
    | [] =>
      rw [step_idle hh hev, step_idle hht (h.inEvents ▸ hev)]
      rfl
    | .reset :: rest => exact absurd hev (hne rest)
    | .streamError :: rest =>
      rw [step_streamError hh hev, step_streamError hht (h.inEvents ▸ hev)]
      exact herror rest
    | .byte b :: rest =>
      rw [step_byte hh hev, step_byte hht (h.inEvents ▸ hev)]
      exact hbyte b rest

section SameTail

variable {s t : State}

theorem sameTail_offer (h : SameTail s t) (evs : List InEvent) : SameTail (offer evs s) (offer evs t) :=
  { h with same := { h.same with inEvents := rfl } }

/-- A pass reads the last four bytes of BUF and its end marker, and no others. -/
theorem passSlots_eq_of_sameTail (h : SameTail s t) (b : Byte) : passSlots b s = passSlots b t := by
  by_cases hb : b = kEnd
  · subst hb
    rw [passSlots_end_of_noRecognized h.leftLegal h.leftClean, passSlots_end_of_noRecognized h.rightLegal h.rightClean,
      h.tail]
  · rw [passSlots_of_ne hb, passSlots_of_ne hb]

theorem lastBytes_appended_eq_of_sameTail (h : SameTail s t) (b : Byte) :
    lastBytes 4 (appended s b) = lastBytes 4 (appended t b) := by
  have hthree : lastBytes 3 s.buf = lastBytes 3 t.buf := by
    rw [← lastBytes_lastBytes (by omega : 3 ≤ 4), h.tail, lastBytes_lastBytes (by omega)]
  rw [lastBytes_appended h.leftLegal (by omega), lastBytes_appended h.rightLegal (by omega), hthree]

theorem passState_tailAgrees (h : SameTail s t) (b : Byte) : TailAgrees (passState b s) (passState b t) := by
  rw [passState_eq, passState_eq, passSlots_eq_of_sameTail h]
  refine ⟨{ h.same with }, ?_⟩
  cases (passSlots b t).hit with
  | true => rfl
  | false => exact lastBytes_appended_eq_of_sameTail h b

/-- The dispatch commutes with a view of the RawBuffer and keeps BUF, so it keeps the tails as they are. -/
theorem process_lockstep (h : TailAgrees s t) (sl : Slots) :
    Lockstep TailAgrees (finish (process sl s)) (finish (process sl t)) := by
  rw [eq_rebuffer_of_sameButBuf h.same, process_rebuffer]
  refine lockstep_finish fun f hf => ⟨sameButBuf_rebuffer _ _ _, ?_⟩
  rw [(process_keeps_buffer hf).1]
  exact h.tail

theorem byteIn_lockstep (h : SameTail s t) (b : Byte) :
    Lockstep TailAgrees (finish (byteIn b s)) (finish (byteIn b t)) := by
  rw [byteIn_eq_process, byteIn_eq_process, passSlots_eq_of_sameTail h]
  exact process_lockstep (passState_tailAgrees h b) _

theorem step_tailAgrees (h : SameTail s t) : Lockstep TailAgrees (step s) (step t) := by
  refine lockstep_step h.same (fun rest => ?_) (fun rest => ?_) fun b rest => byteIn_lockstep (sameTail_offer h rest) b
  · exact ⟨{ h.same with mode := rfl, index := rfl, halt := rfl, haltCause := rfl, inEvents := rfl }, rfl⟩
  · refine ⟨{ h.same with halt := rfl, haltCause := rfl, inEvents := rfl, out := ?_ }, h.tail⟩
    simp [h.same.out]

end SameTail

/-- Settles O24: the step keeps the tails alike, and each machine its parameters and its clean buffer. -/
theorem olderBytesAreNeverObserved : Obligations.OlderBytesAreNeverObserved := by
  intro s t h
  refine lockstep_imp (step_tailAgrees h) fun s' t' hs ht hst => ?_
  exact {
    same := hst.same
    tail := hst.tail
    leftLegal := step_params hs ▸ h.leftLegal
    rightLegal := step_params ht ▸ h.rightLegal
    leftClean := step_noRecognized h.leftClean hs
    rightClean := step_noRecognized h.rightClean ht }

/-! ## The pass of an end marker (R103, R104, R108, R109) -/

/-- Where the pass of a byte finds nothing, the byte is appended and nothing is dispatched. -/
theorem byteIn_of_empty {b : Byte} {s : State} (h : passSlots b s = Slots.empty) :
    byteIn b s = .ok (done { s with buf := appended s b }) := by
  rw [byteIn_eq_process, passState_eq, h]
  rfl

/-- Settles O17: the pass finds nothing. -/
theorem endWithoutHitKeepsTheBuffer : Obligations.EndWithoutHitKeepsTheBuffer := by
  intro s hclean
  have hslots : passSlots kEnd s = Slots.empty := (passSlots_end s).trans ((noRecognized_iff _).mp hclean)
  rw [exec, execEndByte, byteIn_of_empty hslots]
  rfl

/-- Settles O16: fewer than five bytes hold no window. -/
theorem endOnShortBufferOnlyAppends : Obligations.EndOnShortBufferOnlyAppends :=
  fun s hshort => endWithoutHitKeepsTheBuffer s (noRecognized_of_length_lt hshort)

/-- END with a hit is the dispatch of its pass on the cleared buffer. -/
theorem exec_endByte_of_hit {s : State} {sl : Slots} (hscan : scan (appended s kEnd) = sl) (hhit : sl.hit = true) :
    exec .endByte s = finish (process sl (clearBuf s)) := by
  have hslots : passSlots kEnd s = sl := (passSlots_end s).trans hscan
  rw [← hslots, ← byteIn_of_hit (hslots ▸ hhit)]
  rfl

/-- Settles O18: the dispatch of the one packet is the meaning of its instruction. -/
theorem endRunsItsOnePacket : Obligations.EndRunsItsOnePacket := by
  intro s
  refine ⟨fun p hscan => ?_, fun c hscan => ?_⟩
  · rw [exec_endByte_of_hit hscan rfl]
    rfl
  · rw [exec_endByte_of_hit hscan rfl, exec_decodeButton]
    rfl

/-! ## The slots of a scan (R105, R107) -/

/-- The window at position i is a frame of kind k and payload p: `SensorAt` and `ButtonsAt` are this of their kinds. -/
def FrameAt (k : Byte) (buf : List Byte) (i : Nat) (p : Half) : Prop :=
  ∃ hi lo, WindowAt buf i k hi lo ∧ p.toNat = hi.toNat * 256 + lo.toNat

/-- The last frame of kind k in a byte sequence has payload p. -/
def LastFrame (k : Byte) (buf : List Byte) (p : Half) : Prop :=
  ∃ i, FrameAt k buf i p ∧ ∀ j q, i < j → ¬ FrameAt k buf j q

/-- A slot is the one of kind k: a window of that kind overwrites it, and any other leaves it. -/
def SlotOfKind (slot : Slots → Option Half) (k : Byte) : Prop :=
  ∀ sl w p, slot (sl.record w) = some p ↔ FrameAt k w 0 p ∨ ((∀ q, ¬ FrameAt k w 0 q) ∧ slot sl = some p)

theorem windowAt_unique {w : List Byte} {i : Nat} {k k' hi hi' lo lo' : Byte} (h : WindowAt w i k hi lo)
    (h' : WindowAt w i k' hi' lo') : k = k' ∧ hi = hi' ∧ lo = lo' := by
  simpa using h.symm.trans h'

/-- A window of kind k is a frame of its payload and of no other. -/
theorem frameAt_iff_of_windowAt {w : List Byte} {i : Nat} {k hi lo : Byte} (h : WindowAt w i k hi lo) (p : Half) :
    FrameAt k w i p ↔ payload hi lo = p := by
  constructor
  · rintro ⟨hi', lo', h', hp⟩
    obtain ⟨-, rfl, rfl⟩ := windowAt_unique h h'
    exact (payload_eq_iff hi lo p).mpr hp
  · exact fun hp => ⟨hi, lo, h, (payload_eq_iff hi lo p).mp hp⟩

theorem not_frameAt_of_windowAt {w : List Byte} {i : Nat} {k k' hi lo : Byte} (h : WindowAt w i k hi lo) (hk : k ≠ k')
    (p : Half) : ¬ FrameAt k' w i p :=
  fun ⟨_, _, h', _⟩ => hk (windowAt_unique h h').1

theorem slotOfKind_sensor : SlotOfKind Slots.sensor kindSensor := by
  intro sl w p
  rcases record_cases sl w with ⟨hi, lo, hw, hr⟩ | ⟨hi, lo, hw, hr⟩ | ⟨hnone, hr⟩ <;> rw [hr]
  · simp [frameAt_iff_of_windowAt hw]
  · simp [not_frameAt_of_windowAt hw (by decide : kindButtons ≠ kindSensor)]
  · have hno : ∀ q, ¬ FrameAt kindSensor w 0 q := fun q ⟨hi, lo, h, _⟩ => (hnone hi lo).1 h
    simp [hno]

theorem slotOfKind_buttons : SlotOfKind Slots.buttons kindButtons := by
  intro sl w p
  rcases record_cases sl w with ⟨hi, lo, hw, hr⟩ | ⟨hi, lo, hw, hr⟩ | ⟨hnone, hr⟩ <;> rw [hr]
  · simp [not_frameAt_of_windowAt hw (by decide : kindSensor ≠ kindButtons)]
  · simp [frameAt_iff_of_windowAt hw]
  · have hno : ∀ q, ¬ FrameAt kindButtons w 0 q := fun q ⟨hi, lo, h, _⟩ => (hnone hi lo).2 h
    simp [hno]

theorem not_frameAt_nil (k : Byte) (i : Nat) (p : Half) : ¬ FrameAt k [] i p := by
  rintro ⟨hi, lo, h, -⟩
  simp [WindowAt] at h

/-- One byte in front moves every window by one place and adds the window at place 0. -/
theorem forall_not_frameAt_cons {k a : Byte} {w : List Byte} :
    (∀ i q, ¬ FrameAt k (a :: w) i q) ↔ (∀ q, ¬ FrameAt k (a :: w) 0 q) ∧ ∀ i q, ¬ FrameAt k w i q := by
  refine ⟨fun h => ⟨h 0, fun i => h (i + 1)⟩, fun ⟨h0, hw⟩ i => ?_⟩
  cases i with
  | zero => exact h0
  | succ i => exact hw i

theorem lastFrame_cons {k a : Byte} {w : List Byte} {p : Half} :
    LastFrame k (a :: w) p ↔ LastFrame k w p ∨ ((∀ i q, ¬ FrameAt k w i q) ∧ FrameAt k (a :: w) 0 p) := by
  constructor
  · rintro ⟨i, hi, hlast⟩
    cases i with
    | zero => exact .inr ⟨fun j q => hlast (j + 1) q (Nat.succ_pos j), hi⟩
    | succ i => exact .inl ⟨i, hi, fun j q hj => hlast (j + 1) q (Nat.succ_lt_succ hj)⟩
  · rintro (⟨i, hi, hlast⟩ | ⟨hnone, h0⟩)
    · refine ⟨i + 1, hi, fun j q hj => ?_⟩
      obtain ⟨j, rfl⟩ := Nat.exists_eq_add_one_of_ne_zero (Nat.ne_zero_of_lt hj)
      exact hlast j q (Nat.lt_of_succ_lt_succ hj)
    · refine ⟨0, h0, fun j q hj => ?_⟩
      obtain ⟨j, rfl⟩ := Nat.exists_eq_add_one_of_ne_zero (Nat.ne_zero_of_lt hj)
      exact hnone j q

/-- A scan leaves in a slot the last frame of its kind, or what the slot held where there is none. -/
theorem slot_scanFrom_iff {slot : Slots → Option Half} {k : Byte} (hslot : SlotOfKind slot k) (sl : Slots)
    (w : List Byte) (p : Half) :
    slot (scanFrom sl w) = some p ↔ LastFrame k w p ∨ ((∀ i q, ¬ FrameAt k w i q) ∧ slot sl = some p) := by
  induction w generalizing sl with
  | nil => simp [scanFrom, LastFrame, not_frameAt_nil]
  | cons a w ih =>
    rw [scanFrom, ih, hslot, lastFrame_cons, forall_not_frameAt_cons]
    tauto

theorem slot_scan_iff {slot : Slots → Option Half} {k : Byte} (hslot : SlotOfKind slot k)
    (hempty : slot Slots.empty = none) (w : List Byte) (p : Half) : slot (scan w) = some p ↔ LastFrame k w p := by
  simp [scan, slot_scanFrom_iff hslot, hempty]

/-- Settles O20, the same fact for the two slots. -/
theorem scanKeepsTheLastMatchOfEachKind : Obligations.ScanKeepsTheLastMatchOfEachKind :=
  fun buf => ⟨slot_scan_iff slotOfKind_sensor rfl buf, slot_scan_iff slotOfKind_buttons rfl buf⟩

/-- Settles O22: the pass reads the one window that the byte completes, and one window fills one slot. -/
theorem passSeesOnlyTheLastWindow : Obligations.PassSeesOnlyTheLastWindow := by
  intro buf b hclean _
  refine ⟨(scan_lastBytes_snoc le_rfl hclean b).symm, ?_⟩
  rw [scan_snoc_of_noRecognized b hclean]
  rcases record_cases Slots.empty (lastBytes 4 buf ++ [b]) with ⟨_, _, -, hr⟩ | ⟨_, _, -, hr⟩ | ⟨-, hr⟩ <;> rw [hr]
  · exact .inr rfl
  · exact .inl rfl
  · exact .inl rfl

/-! ## The items of a step, in order (R122) -/

/-- What SensorOp may emit: nothing, or one command, Reject or Empty. -/
def SensorItems (l : List OutItem) : Prop :=
  l = [] ∨ (∃ c, l = [.cmd c]) ∨ (∃ m f c, l = [.evt (.reject m f c)]) ∨ ∃ m, l = [.evt (.empty m)]

/-- What ButtonOp may emit: nothing, or one Empty. -/
def ButtonItems (l : List OutItem) : Prop := l = [] ∨ ∃ m, l = [.evt (.empty m)]

/-- The item of a fatal entry, where the operation raised (R206). -/
def haltedItem (f : Flow) : List OutItem := if f.raised = true then [.evt (.halted f.state.haltCause)] else []

@[simp] theorem haltedItem_done (s : State) : haltedItem (done s) = [] := rfl
@[simp] theorem haltedItem_fatal (cause : HaltCause) (s : State) :
    haltedItem (fatal cause s) = [.evt (.halted cause)] := rfl

/-- An operation emits items of the form P, and then Halted where it raised. -/
def Emits (P : List OutItem → Prop) (s : State) (f : Flow) : Prop :=
  ∃ items, P items ∧ f.state.out = s.out ++ items ++ haltedItem f

section Emits

variable {P : List OutItem → Prop} {s : State}

theorem emits_done {t : State} (hP : P []) (ht : t.out = s.out) : Emits P s (done t) := ⟨[], hP, by simp [ht]⟩

theorem emits_fatal (hP : P []) (cause : HaltCause) : Emits P s (fatal cause s) := ⟨[], hP, by simp⟩

theorem emits_emit {o : OutItem} {t : State} (hP : P [o]) (ht : t.out = s.out) : Emits P s (done (emit o t)) :=
  ⟨[o], hP, by simp [ht]⟩

theorem sensorWith_emits (p : Half) (S : Snapshot) (s : State) : Emits SensorItems s (sensorWith p S s) := by
  rcases sensorWith_cases p S s with ⟨-, -, he⟩ | ⟨-, -, he⟩ | ⟨-, j, cur, d, -, -, -, ⟨-, he⟩ | ⟨-, he⟩⟩ <;> rw [he]
  · exact emits_fatal (.inl rfl) _
  · exact emits_emit (.inr (.inr (.inr ⟨_, rfl⟩))) rfl
  · exact emits_emit (.inr (.inr (.inl ⟨_, _, _, rfl⟩))) rfl
  · exact emits_emit (.inr (.inl ⟨_, rfl⟩)) rfl

theorem emptyCase_emits (m : Mode) (flip : Bool) (s : State) : Emits ButtonItems s (emptyCase m flip s) := by
  rcases emptyCase_cases m flip s with ⟨-, he⟩ | ⟨-, he⟩ <;> rw [he]
  · exact emits_fatal (.inl rfl) _
  · exact emits_emit (.inr ⟨m, rfl⟩) (by cases flip <;> rfl)

theorem toggleWith_emits (S : Snapshot) (s : State) : Emits ButtonItems s (toggleWith S s) := by
  rcases toggleWith_cases S s with ⟨-, he⟩ | ⟨-, -, he⟩ | ⟨-, -, he⟩ <;> rw [he]
  · exact emptyCase_emits _ _ s
  · exact emits_done (.inl rfl) rfl
  · exact emits_done (.inl rfl) rfl

theorem nextWith_emits (S : Snapshot) (s : State) : Emits ButtonItems s (nextWith S s) := by
  rcases nextWith_cases S s with ⟨-, he⟩ | ⟨-, i, -, -, he⟩ <;> rw [he]
  · exact emptyCase_emits _ _ s
  · exact emits_done (.inl rfl) rfl

theorem prevWith_emits (S : Snapshot) (s : State) : Emits ButtonItems s (prevWith S s) := by
  rcases prevWith_cases S s with ⟨-, he⟩ | ⟨-, i, -, -, he⟩ <;> rw [he]
  · exact emptyCase_emits _ _ s
  · exact emits_done (.inl rfl) rfl

/-- The query emits nothing, and a failed one only Halted (R202). -/
theorem withSnapshot_emits {op : Snapshot → State → Flow} {f : Flow} (hP : P []) (hop : ∀ S s, Emits P s (op S s))
    (h : withSnapshot op s = .ok f) : Emits P s f := by
  rcases withSnapshot_cases op s with he | he | ⟨S, -, -, he⟩ <;> rw [he] at h
  · cases h
  · obtain rfl := Except.ok.inj h
    exact emits_fatal (s := afterQuery s) hP _
  · obtain rfl := Except.ok.inj h
    exact hop S (afterQuery s)

theorem sensorOp_emits {p : Half} {f : Flow} (h : sensorOp p s = .ok f) : Emits SensorItems s f :=
  withSnapshot_emits (.inl rfl) (sensorWith_emits p) h

theorem buttonOp_emits {c : Half} {f : Flow} (h : buttonOp c s = .ok f) : Emits ButtonItems s f := by
  rcases buttonOp_cases c s with ⟨-, he⟩ | ⟨-, he⟩ | ⟨-, he⟩ | ⟨-, -, -, he⟩ <;> rw [he] at h
  · exact withSnapshot_emits (.inl rfl) toggleWith_emits h
  · exact withSnapshot_emits (.inl rfl) nextWith_emits h
  · exact withSnapshot_emits (.inl rfl) prevWith_emits h
  · obtain rfl := Except.ok.inj h
    exact emits_done (.inl rfl) rfl

end Emits

/-- What a whole step emits: an item of SensorOp, then one of ButtonOp, each of which may be missing. -/
def StepItems (l : List OutItem) : Prop :=
  ∃ fromSensor fromButtons, l = fromSensor ++ fromButtons ∧ SensorItems fromSensor ∧ ButtonItems fromButtons

theorem stepItems_nil : StepItems [] := ⟨[], [], rfl, .inl rfl, .inl rfl⟩

theorem stepItems_sensor {l : List OutItem} (h : SensorItems l) : StepItems l := ⟨l, [], by simp, h, .inl rfl⟩

theorem stepItems_buttons {l : List OutItem} (h : ButtonItems l) : StepItems l := ⟨[], l, by simp, .inl rfl, h⟩

theorem emits_mono {P Q : List OutItem → Prop} {s : State} {f : Flow} (h : Emits P s f) (hPQ : ∀ l, P l → Q l) :
    Emits Q s f := by
  obtain ⟨items, hitems, hout⟩ := h
  exact ⟨items, hPQ items hitems, hout⟩

theorem process_emits {sl : Slots} {s : State} {f : Flow} (h : process sl s = .ok f) : Emits StepItems s f := by
  rcases process_cases sl s with ⟨-, he⟩ | ⟨p, -, he⟩ | ⟨c, -, he⟩ | ⟨p, c, -, htwo⟩
  · obtain rfl := Except.ok.inj (he.symm.trans h)
    exact emits_done stepItems_nil rfl
  · exact emits_mono (sensorOp_emits (he.symm.trans h)) fun _ => stepItems_sensor
  · exact emits_mono (buttonOp_emits (he.symm.trans h)) fun _ => stepItems_buttons
  · rcases htwo with ⟨r, -, he⟩ | ⟨g, hg, -, he⟩ | ⟨g, hg, hret, he⟩ <;> rw [he] at h
    · cases h
    · obtain rfl := Except.ok.inj h
      exact emits_mono (sensorOp_emits hg) fun _ => stepItems_sensor
    · obtain ⟨fromSensor, hsensor, hmid⟩ := sensorOp_emits hg
      obtain ⟨fromButtons, hbuttons, hout⟩ := buttonOp_emits h
      refine ⟨fromSensor ++ fromButtons, ⟨_, _, rfl, hsensor, hbuttons⟩, ?_⟩
      rw [hout, hmid]
      simp [haltedItem, hret]

theorem byteIn_emits {b : Byte} {s : State} {f : Flow} (h : byteIn b s = .ok f) : Emits StepItems s f := by
  rw [byteIn_eq_process, passState_eq] at h
  exact (process_emits h :)

/-- The items of an event on a running block, as O49 has them: HALT tells whether the operation raised. -/
theorem Emits.ordered {s : State} {f : Flow} (h : Emits StepItems s f) (hrun : s.halt = false)
    (hhalt : f.state.halt = f.raised) :
    ∃ fromSensor fromButtons fromHalt,
      f.state.out = s.out ++ fromSensor ++ fromButtons ++ fromHalt ∧ SensorItems fromSensor ∧
      ButtonItems fromButtons ∧
      (if s.halt = false ∧ f.state.halt = true then fromHalt = [.evt (.halted f.state.haltCause)]
        else fromHalt = []) := by
  obtain ⟨_, ⟨fromSensor, fromButtons, rfl, hsensor, hbuttons⟩, hout⟩ := h
  refine ⟨fromSensor, fromButtons, haltedItem f, by simpa using hout, hsensor, hbuttons, ?_⟩
  cases hr : f.raised <;> simp [haltedItem, hrun, hhalt, hr]

/-- Settles O49: Reset emits nothing and leaves HALT at 0, StreamError emits Halted, and a byte the items of its pass. -/
theorem stepOutputsInOrder : Obligations.StepOutputsInOrder := by
  intro s s' h
  rcases step_cases h with ⟨rest, -, rfl⟩ | ⟨rest, -, hrun, rfl⟩ | ⟨b, rest, f, -, hrun, hf, rfl⟩
  · exact ⟨[], [], [], by simp, .inl rfl, .inl rfl, by simp⟩
  · exact (emits_fatal (s := offer rest s) stepItems_nil .transport).ordered hrun rfl
  · exact (byteIn_emits hf).ordered hrun ((byteIn_effect hf).halt_eq_raised hrun)

/-! ## Single events (R100, R101, R110) -/

/-- Settles O7: the byte is handed to ByteIn, as is the instruction it decodes to. -/
theorem stepRunsTheStreamByte : Obligations.StepRunsTheStreamByte := by
  intro s b rest i hrun hev hdec
  obtain rfl : decodeStream b = i := Except.ok.inj hdec
  rw [step_byte hrun hev, exec_decodeStream]
  rfl

/-- Settles O12: the step on a StreamError is the fatal entry alone. -/
theorem streamErrorHaltsTheBlock : Obligations.StreamErrorHaltsTheBlock :=
  fun _ _ hrun hev => step_streamError hrun hev

/-- Settles O14, by the two equations of MakeRoom. -/
theorem makeRoomDropsTheOldestByte : Obligations.MakeRoomDropsTheOldestByte := by
  refine ⟨fun q cap buf hcap => ?_, fun q buf hcap => roomFor_unbounded buf hcap⟩
  rw [roomFor_finite buf hcap, List.drop_one]

/-- Settles O15: without an end marker there is no pass. -/
theorem byteOnlyAppends : Obligations.ByteOnlyAppends := by
  intro s b hb
  rw [exec, execByte, byteIn_of_empty (passSlots_of_ne hb s)]
  rfl

/-! ## The placing of a word (notes/assumptions/9.md) -/

theorem decode_of_decodeTableWord {nbits w : Nat} {i : Instr} (h : decodeTableWord nbits w = some i) :
    decode (tableBytes nbits w) = .ok i := by
  unfold decodeTableWord at h
  split at h
  next hdec => rw [hdec, Option.some.inj h]
  next => cases h

theorem isFrame_decodeStream (b : Byte) : (decodeStream b).isFrame = false := by
  by_cases hb : b = kEnd
  · subst hb
    rfl
  · rw [decodeStream, if_neg hb, Instr.isFrame]

theorem isFrame_decodeButton (c : Half) : (decodeButton c).isFrame = true := by
  rcases decodeButton_cases c with ⟨-, h⟩ | ⟨-, h⟩ | ⟨-, h⟩ | ⟨-, h⟩ <;> rw [h, Instr.isFrame]

theorem isFrame_frameInstr (k : Byte) (p : Half) : (frameInstr k p).isFrame = true := by
  rcases kind_cases k with rfl | rfl | ⟨hs, hb⟩
  · rfl
  · exact isFrame_decodeButton p
  · rw [frameInstr_kindOther hs hb, Instr.isFrame]

/-- The state with a frame placed: its first four bytes in BUF, and its end marker the next event of IN. -/
def placedFrame (k : Byte) (p : Half) (s : State) : State :=
  { s with buf := (frameBytes k p).take 4, inEvents := .byte kEnd :: s.inEvents }

theorem withFetchWord_of_stream {s : State} {nbits w : Nat} {b : Byte} (h : tableBytes nbits w = [b]) :
    s.withFetchWord nbits w = offer (.byte b :: s.inEvents) s := by
  rw [State.withFetchWord, placeWord, h]
  rfl

theorem withFetchWord_of_frame {s : State} {nbits w : Nat} {k : Byte} {p : Half}
    (h : tableBytes nbits w = frameBytes k p) : s.withFetchWord nbits w = placedFrame k p s := by
  rw [State.withFetchWord, placeWord, h]
  rfl

/-- With a legal capacity the end marker completes the four bytes of a placed frame, and drops none of them. -/
theorem appended_placedFrame {s : State} (hlegal : s.params.legal = true) (k : Byte) (p : Half) :
    appended (placedFrame k p s) kEnd = frameBytes k p := by
  have hlen : (placedFrame k p s).buf.length < 5 := by simp [placedFrame, frameBytes]
  rw [appended_eq, roomFor_short (q := (placedFrame k p s).params) hlegal hlen]
  rfl

/-- Settles O9: a placed stream byte is the next event, and a placed frame is completed by its end marker. -/
theorem placedWordIsRunNext : Obligations.PlacedWordIsRunNext := by
  intro s nbits w i hrun hlegal hword
  have hdec := decode_of_decodeTableWord hword
  rcases decode_ok hdec with ⟨b, hbytes, rfl⟩ | ⟨k, p, hbytes, rfl⟩
  · rw [withFetchWord_of_stream hbytes, isFrame_decodeStream, if_neg Bool.false_ne_true]
    exact stepRunsTheStreamByte _ b s.inEvents _ hrun rfl rfl
  · rw [withFetchWord_of_frame hbytes, isFrame_frameInstr, if_pos rfl, hbytes]
    have hclean : NoRecognized (placedFrame k p s).buf := noRecognized_of_length_lt (by simp [placedFrame, frameBytes])
    have hframe := stepRunsTheCompletedFrame (placedFrame k p s) s.inEvents _ hrun hlegal hclean le_rfl rfl
      (decode_frameBytes k p)
    rw [appended_placedFrame hlegal] at hframe
    exact hframe

end Sys2Proof.Proofs
end

section
/-! PROOFS. The family 41_volume.md: the scaler (O28), the App jump guard (O29), and SENSOR in each mode, on an empty list
and on a failed query (O30 to O33), with the one item it emits (O34) and the registers it keeps (O35). The idea: past its
query SENSOR either raises or emits one item and changes nothing else, so every claim is a claim about that item. -/

namespace Sys2Proof.Proofs

open Sys2Proof Machine Config Safety Laws

/-! ## The scaler and the guards (R131, R138, R141) -/

theorem raw_toNat (p : Half) : (raw p).toNat = p.toNat :=
  BitVec.toNat_setWidth_of_le (by omega)

/-- The scaler's product does not wrap: `65535 * 65535 < 2^32` (R131). -/
theorem scaleMul_mul_raw_toNat (p : Half) : (scaleMul * raw p).toNat = 65535 * p.toNat := by
  have hp := p.isLt
  rw [BitVec.toNat_mul, raw_toNat, scaleMul, BitVec.toNat_ofNat]
  omega

theorem finalVolume_toNat (p : Half) : (finalVolume p).toNat = 65535 * p.toNat / 1024 := by
  rw [finalVolume, BitVec.toNat_udiv, scaleMul_mul_raw_toNat]
  rfl

theorem finalVolume_eq_ofNat (p : Half) : finalVolume p = BitVec.ofNat 32 (65535 * p.toNat / 1024) := by
  rw [← finalVolume_toNat, BitVec.ofNat_toNat, BitVec.setWidth_eq]

theorem finalVolume_eq_shift (p : Half) : finalVolume p = (scaleMul * raw p) >>> 10 := by
  apply BitVec.eq_of_toNat_eq
  rw [finalVolume_toNat, BitVec.toNat_ushiftRight, scaleMul_mul_raw_toNat, Nat.shiftRight_eq_div_pow]

/-- `65535 = 2^16 - 1` as a shift and a subtraction (R131). -/
theorem raw_shift_sub_raw (p : Half) : (raw p <<< 16) - raw p = scaleMul * raw p := by
  have hp := p.isLt
  apply BitVec.eq_of_toNat_eq
  rw [scaleMul_mul_raw_toNat, BitVec.toNat_sub, BitVec.toNat_shiftLeft, raw_toNat, Nat.shiftLeft_eq]
  omega

/-- Settles O28: the product does not wrap, so the quotient and both shifts are those of the natural numbers. -/
theorem scalerIsExact : Obligations.ScalerIsExact := by
  intro p
  have hp := p.isLt
  refine ⟨finalVolume_toNat p, ?_, finalVolume_eq_shift p, ?_⟩
  · rw [finalVolume_toNat]
    omega
  · rw [finalVolume_eq_shift, ← raw_shift_sub_raw]
    rfl

theorem appRejects_iff (d : Int) : appRejects d = true ↔ 65535 < 10 * d.natAbs := decide_eq_true_iff

theorem devRejects_iff (d : Int) : devRejects d = true ↔ 10000 < d.natAbs := decide_eq_true_iff

/-- Settles O29: `10 * 6553 <= 65535 < 10 * 6554`, and 6553 is a u16. -/
theorem appGuardBoundsTheNumerator : Obligations.AppGuardBoundsTheNumerator := by
  intro d
  have hguard : appRejects d = true ↔ 6554 ≤ d.natAbs := by
    rw [appRejects_iff]
    omega
  refine ⟨hguard, fun haccept => ?_⟩
  have hle : d.natAbs ≤ 6553 := by
    rw [← Bool.not_eq_true, hguard] at haccept
    omega
  have hwhole : (numerator d).toNat = d.natAbs := by
    rw [numerator, BitVec.toNat_ofNat, Nat.mod_eq_of_lt (by omega)]
  exact ⟨hwhole, hwhole.trans_le hle⟩

/-! ## SENSOR on an answer of the host (R133) -/

theorem exec_sensor_snap {s : State} {S : Snapshot} (h : HostGives s (.snap S)) (p : Half) :
    exec (.sensor p) s = .next (sensorWith p S (afterQuery s)).state := by
  obtain ⟨hans, hfit⟩ := h
  rw [exec, execSensor, sensorOp, withSnapshot_snap hans hfit, finish_ok]

theorem exec_sensor_fail {s : State} (h : HostGives s .fail) (p : Half) :
    exec (.sensor p) s = .next (fatal .backend (afterQuery s)).state := by
  obtain ⟨hans, -⟩ := h
  rw [exec, execSensor, sensorOp, withSnapshot_fail hans, finish_ok]

/-! ## SENSOR on a list with entries (R135 to R143) -/

/-- The one item of an update of entry j from the volume cur: the guard's Reject, or the command (R136 to R143). -/
def updateItem (m : Mode) (j : Nat) (final cur : Vol) : OutItem :=
  if guardRejects m (difference final cur) then .evt (.reject m final cur)
  else .cmd (acceptCommand m j final (difference final cur))

theorem sensorWith_of_entry {S : Snapshot} {s : State} {cur : Vol} (p : Half)
    (hcur : (targets S s.mode)[clampIndex s.index (count S s.mode)]? = some cur) :
    sensorWith p S s =
      done (emit (updateItem s.mode (clampIndex s.index (count S s.mode)) (finalVolume p) cur) s) := by
  have hcount : count S s.mode ≠ 0 := by
    obtain ⟨hlt, -⟩ := List.getElem?_eq_some_iff.mp hcur
    exact Nat.ne_zero_of_lt hlt
  rcases sensorWith_cases p S s with ⟨h0, -⟩ | ⟨h0, -⟩ | ⟨-, _, _, _, rfl, rfl, rfl, hguard⟩
  · exact absurd h0 hcount
  · exact absurd h0 hcount
  · rw [vol_eq_of_getElem? hcur] at hguard
    rcases hguard with ⟨hg, he⟩ | ⟨hg, he⟩ <;> simp [he, updateItem, hg]

/-- In Device mode `|d| > 10000` rejects, and the target is set to the scaled value (R141, R142). -/
theorem updateItem_device (j : Nat) (final cur : Vol) :
    updateItem .device j final cur =
      if 10000 < (difference final cur).natAbs then .evt (.reject .device final cur)
      else .cmd (.devSet j final) := by
  simp only [updateItem, guardRejects, devRejects_iff, acceptCommand]

/-- In App mode `10 * |d| > 65535` rejects, and the sign of d chooses the command (R138, R139). -/
theorem updateItem_app (j : Nat) (final cur : Vol) :
    updateItem .app j final cur =
      if 65535 < 10 * (difference final cur).natAbs then .evt (.reject .app final cur)
      else if 0 < difference final cur then .cmd (.appInc j (BitVec.ofNat 16 (difference final cur).natAbs))
      else .cmd (.appDec j (BitVec.ofNat 16 (difference final cur).natAbs)) := by
  simp only [updateItem, guardRejects, appRejects_iff, acceptCommand, numerator, apply_ite OutItem.cmd]

/-- The difference over the exact quotient (R137). -/
theorem difference_finalVolume (p : Half) (cur : Vol) :
    difference (finalVolume p) cur = ((65535 * p.toNat / 1024 : Nat) : Int) - (cur.toNat : Int) := by
  rw [difference, finalVolume_toNat]

/-- SENSOR with an entry at the effective index emits that entry's one item, after the query. -/
theorem exec_sensor_of_entry {s : State} {S : Snapshot} {m : Mode} {cur : Vol} (p : Half)
    (hS : HostGives s (.snap S)) (hmode : s.mode = m)
    (hcur : (targets S m)[clampIndex s.index (count S m)]? = some cur) :
    exec (.sensor p) s = .next
      (emit (updateItem m (clampIndex s.index (count S m)) (finalVolume p) cur) (afterQuery s)) := by
  subst hmode
  rw [exec_sensor_snap hS, sensorWith_of_entry (s := afterQuery s) p hcur]
  rfl

/-- Settles O30: the item is the one of Device mode. -/
theorem sensorSetsOrRejectsADevice : Obligations.SensorSetsOrRejectsADevice := by
  intro s p S cur hS hmode hcur
  rw [exec_sensor_of_entry p hS hmode hcur, updateItem_device, difference_finalVolume, finalVolume_eq_ofNat]
  rfl

/-- Settles O31: the item is the one of App mode. -/
theorem sensorAdjustsOrRejectsAnApp : Obligations.SensorAdjustsOrRejectsAnApp := by
  rintro s p S cur d hS hmode hcur rfl
  rw [exec_sensor_of_entry p hS hmode hcur, updateItem_app, difference_finalVolume, finalVolume_eq_ofNat]
  rfl

/-! ## SENSOR on an empty list (R134) -/

theorem sensorWith_empty_recover {S : Snapshot} {s : State} (p : Half) (h0 : count S s.mode = 0)
    (hp : s.params.emptyPolicy = .recover) : sensorWith p S s = done (emit (.evt (.empty s.mode)) s) := by
  simp [sensorWith, h0, hp]

theorem sensorWith_empty_fault {S : Snapshot} {s : State} (p : Half) (h0 : count S s.mode = 0)
    (hp : s.params.emptyPolicy = .fault) : sensorWith p S s = fatal .empty s := by
  simp [sensorWith, h0, hp]

/-- Settles O32: the query, and then what EMPTY_POLICY asks for. -/
theorem sensorMeetsAnEmptyList : Obligations.SensorMeetsAnEmptyList := by
  intro s p S hS h0
  rw [exec_sensor_snap hS]
  refine ⟨fun hp => ?_, fun hp => ?_⟩
  · rw [sensorWith_empty_recover (s := afterQuery s) p h0 hp]
    rfl
  · rw [sensorWith_empty_fault (s := afterQuery s) p h0 hp]
    rfl

/-! ## All that SENSOR can come to (R144, R145) -/

/-- The items that a sensor update may emit in mode m (R144). -/
def SensorItemOf (m : Mode) (x : OutItem) : Prop :=
  (m = .device ∧ ∃ i v, x = .cmd (.devSet i v)) ∨
  (m = .app ∧ ∃ i n, x = .cmd (.appInc i n) ∨ x = .cmd (.appDec i n)) ∨
  (∃ final cur, x = .evt (.reject m final cur)) ∨
  x = .evt (.empty m)

theorem sensorItemOf_acceptCommand (m : Mode) (j : Nat) (final : Vol) (d : Int) :
    SensorItemOf m (.cmd (acceptCommand m j final d)) := by
  cases m with
  | device => exact .inl ⟨rfl, j, final, rfl⟩
  | app =>
    refine .inr (.inl ⟨rfl, j, numerator d, ?_⟩)
    by_cases hd : 0 < d
    · exact .inl (by rw [acceptCommand, if_pos hd])
    · exact .inr (by rw [acceptCommand, if_neg hd])

/-- Past its query SENSOR raises, or emits one item and changes nothing else. -/
theorem sensorWith_raises_or_emits (p : Half) (S : Snapshot) (s : State) :
    (∃ cause, sensorWith p S s = fatal cause s) ∨
    ∃ x, SensorItemOf s.mode x ∧ sensorWith p S s = done (emit x s) := by
  rcases sensorWith_cases p S s with ⟨-, -, he⟩ | ⟨-, -, he⟩ | ⟨-, j, cur, d, -, -, -, ⟨-, he⟩ | ⟨-, he⟩⟩
  · exact .inl ⟨_, he⟩
  · exact .inr ⟨_, .inr (.inr (.inr rfl)), he⟩
  · exact .inr ⟨_, .inr (.inr (.inl ⟨_, _, rfl⟩)), he⟩
  · exact .inr ⟨_, sensorItemOf_acceptCommand _ _ _ _, he⟩

/-- A SENSOR with a next state made its one query, and then raised or emitted one item. -/
theorem exec_sensor_next {s t : State} {p : Half} (h : exec (.sensor p) s = .next t) :
    (∃ cause, t = (fatal cause (afterQuery s)).state) ∨
    ∃ x, SensorItemOf s.mode x ∧ t = emit x (afterQuery s) := by
  obtain ⟨f, hf, rfl⟩ := finish_next (e := sensorOp p s) h
  rcases withSnapshot_cases (sensorWith p) s with he | he | ⟨S, -, -, he⟩
  · cases he.symm.trans hf
  · obtain rfl := Except.ok.inj (he.symm.trans hf)
    exact .inl ⟨_, rfl⟩
  · obtain rfl := Except.ok.inj (he.symm.trans hf)
    rcases sensorWith_raises_or_emits p S (afterQuery s) with ⟨cause, hw⟩ | ⟨x, hx, hw⟩
    · exact .inl ⟨cause, by rw [hw]⟩
    · exact .inr ⟨x, hx, by rw [hw, done_state]⟩

theorem exec_sensor_running {s t : State} {p : Half} (h : exec (.sensor p) s = .next t) (hrun : t.halt = false) :
    ∃ x, SensorItemOf s.mode x ∧ t = emit x (afterQuery s) := by
  rcases exec_sensor_next h with ⟨cause, rfl⟩ | hemit
  · simp at hrun
  · exact hemit

/-- Settles O33: neither the raise nor the item counts a query, and a failed query raises BACKEND. -/
theorem sensorQueriesOnceAndHaltsOnFail : Obligations.SensorQueriesOnceAndHaltsOnFail := by
  refine ⟨fun s t p h => ?_, fun s p hfail => exec_sensor_fail hfail p⟩
  rcases exec_sensor_next h with ⟨cause, rfl⟩ | ⟨x, -, rfl⟩
  · rfl
  · rfl

/-- Settles O34: a block that runs on has emitted the one item. -/
theorem sensorEmitsExactlyOneItem : Obligations.SensorEmitsExactlyOneItem := by
  intro s t p _ h hrun
  obtain ⟨x, hx, rfl⟩ := exec_sensor_running h hrun
  exact ⟨x, rfl, hx⟩

/-- Settles O35: the query and the emission of the item write no register. -/
theorem sensorWritesNoRegister : Obligations.SensorWritesNoRegister := by
  intro s t p _ h hrun
  obtain ⟨x, -, rfl⟩ := exec_sensor_running h hrun
  rfl

end Sys2Proof.Proofs
end


section
/-! PROOFS. The family 42_selection.md: NEXT, PREV and TOGGLE on a list with entries (O36 to O38), on an empty one (O39, O40)
and on a failed query (O41), BTN_OTHER (O42), and where INDEX stands afterwards (O43, O44). The idea: the three instructions
are one query and then an operation on its snapshot that looks at one list, so what they share is proved once, of a
`Transition`, and only the step inside a list with entries is each one's own. -/

namespace Sys2Proof.Proofs

open Sys2Proof Machine Config Safety Laws

/-! ## The three transitions (R160, R162, R167) -/

/-- An instruction that makes a transition, whether it flips MODE, and its operation on the snapshot. -/
inductive Transition : Instr → Bool → (Snapshot → State → Flow) → Prop where
  | toggle : Transition .toggle true toggleWith
  | next : Transition .next false nextWith
  | prev : Transition .prev false prevWith

theorem exists_transition {i : Instr} (h : i = .toggle ∨ i = .next ∨ i = .prev) : ∃ flip op, Transition i flip op := by
  rcases h with rfl | rfl | rfl
  · exact ⟨_, _, .toggle⟩
  · exact ⟨_, _, .next⟩
  · exact ⟨_, _, .prev⟩

theorem exists_transition_of_keeps_mode {i : Instr} (h : i = .next ∨ i = .prev) : ∃ op, Transition i false op := by
  rcases h with rfl | rfl
  · exact ⟨_, .next⟩
  · exact ⟨_, .prev⟩

/-- The mode that a transition from mode m ends in, and whose list it needs (R163 to R167). -/
def modeAfter (flip : Bool) (m : Mode) : Mode := if flip then m.other else m

theorem eq_other_of_ne {m m2 : Mode} (h : m2 ≠ m) : m2 = m.other := by
  cases m <;> cases m2
  · exact absurd rfl h
  · rfl
  · rfl
  · exact absurd rfl h

namespace Transition

variable {i : Instr} {flip : Bool} {op : Snapshot → State → Flow} {s t : State} {S : Snapshot}

theorem exec_eq (h : Transition i flip op) (s : State) : exec i s = finish (withSnapshot op s) := by
  cases h with
  | toggle => rfl
  | next => rfl
  | prev => rfl

theorem exec_snap (h : Transition i flip op) (hS : HostGives s (.snap S)) :
    exec i s = .next (op S (afterQuery s)).state := by
  obtain ⟨hans, hfit⟩ := hS
  rw [h.exec_eq, withSnapshot_snap hans hfit, finish_ok]

theorem exec_fail (h : Transition i flip op) (hfail : HostGives s .fail) :
    exec i s = .next (fatal .backend (afterQuery s)).state := by
  obtain ⟨hans, -⟩ := hfail
  rw [h.exec_eq, withSnapshot_fail hans, finish_ok]

/-- Past its query a transition makes no other. -/
theorem op_queries (h : Transition i flip op) (hfit : snapshotFits s.params S = true) :
    (op S s).state.queries = s.queries := by
  obtain ⟨k, heffect⟩ : ∃ k, OpEffect 0 k s (op S s) := by
    cases h with
    | toggle => exact ⟨_, toggleWith_effect S s hfit⟩
    | next => exact ⟨_, nextWith_effect S s hfit⟩
    | prev => exact ⟨_, prevWith_effect S s hfit⟩
  exact le_antisymm heffect.queries_le heffect.queries_ge

theorem exec_queries (h : Transition i flip op) (ht : exec i s = .next t) : t.queries = s.queries + 1 := by
  rw [h.exec_eq] at ht
  obtain ⟨f, hf, rfl⟩ := finish_next ht
  rcases withSnapshot_cases op s with he | he | ⟨S, -, hfit, he⟩
  · cases he.symm.trans hf
  · obtain rfl := Except.ok.inj (he.symm.trans hf)
    rfl
  · obtain rfl := Except.ok.inj (he.symm.trans hf)
    exact h.op_queries (s := afterQuery s) hfit

end Transition

/-- Settles O41: the one query, and the raise of BACKEND where it fails. -/
theorem transitionQueriesOnceAndHaltsOnFail : Obligations.TransitionQueriesOnceAndHaltsOnFail := by
  intro s i hi
  obtain ⟨flip, op, htr⟩ := exists_transition hi
  exact ⟨fun t ht => htr.exec_queries ht, htr.exec_fail⟩

/-! ## Lists with entries (R163 to R166, R170) -/

theorem nextWith_of_pos {S : Snapshot} {s : State} (hpos : 0 < count S s.mode) :
    nextWith S s = done (setIndex ((min s.index (count S s.mode - 1) + 1) % count S s.mode) s) := by
  rcases nextWith_cases S s with ⟨h0, -⟩ | ⟨-, j, -, rfl, he⟩
  · exact absurd h0 hpos.ne'
  · exact he

theorem prevWith_of_pos {S : Snapshot} {s : State} (hpos : 0 < count S s.mode) :
    prevWith S s =
      done (setIndex ((min s.index (count S s.mode - 1) + count S s.mode - 1) % count S s.mode) s) := by
  rcases prevWith_cases S s with ⟨h0, -⟩ | ⟨-, j, -, rfl, he⟩
  · exact absurd h0 hpos.ne'
  · exact he

theorem toggleWith_of_pos {S : Snapshot} {s : State} (hpos : 0 < count S s.mode.other) :
    toggleWith S s = done (setIndex (if count S s.mode.other ≤ s.index then count S s.mode.other - 1 else s.index)
      (setMode s.mode.other s)) := by
  rcases toggleWith_cases S s with ⟨h0, -⟩ | ⟨-, hle, he⟩ | ⟨-, hlt, he⟩
  · exact absurd h0 hpos.ne'
  · rw [he, if_pos hle]
  · rw [he, if_neg hlt.not_ge]
    rfl

/-- Settles O36: the query, and then the step forward. -/
theorem nextStepsForwardModuloCount : Obligations.NextStepsForwardModuloCount := by
  rintro s S _ hS rfl hpos
  rw [Transition.next.exec_snap hS, nextWith_of_pos (s := afterQuery s) hpos]
  rfl

/-- Settles O37: the query, and then the step back. -/
theorem prevStepsBackModuloCount : Obligations.PrevStepsBackModuloCount := by
  rintro s S _ hS rfl hpos
  rw [Transition.prev.exec_snap hS, prevWith_of_pos (s := afterQuery s) hpos]
  rfl

/-- Settles O38: the query, and then the flip with its clamp. -/
theorem toggleFlipsAndClamps : Obligations.ToggleFlipsAndClamps := by
  rintro s S _ m2 hS hne rfl hpos
  obtain rfl := eq_other_of_ne hne
  rw [Transition.toggle.exec_snap hS, toggleWith_of_pos (s := afterQuery s) hpos]
  rfl

/-- A step back from where a step forward led, around a list of cnt entries (R170). -/
theorem stepBack_stepForward {j cnt : Nat} (h : j < cnt) :
    (min ((min j (cnt - 1) + 1) % cnt) (cnt - 1) + cnt - 1) % cnt = j := by
  rw [min_eq_left (Nat.le_sub_one_of_lt h)]
  rcases (show j + 1 ≤ cnt from h).lt_or_eq with hin | hwrap
  · have hback : j + 1 + cnt - 1 = j + cnt := by omega
    rw [Nat.mod_eq_of_lt hin, min_eq_left (Nat.le_sub_one_of_lt hin), hback, Nat.add_mod_right, Nat.mod_eq_of_lt h]
  · have hback : 0 + cnt - 1 = j := by omega
    rw [hwrap, Nat.mod_self, Nat.zero_min, hback, Nat.mod_eq_of_lt h]

/-- Settles O44: NEXT keeps MODE, so PREV steps back in a list of the same count. -/
theorem prevUndoesNext : Obligations.PrevUndoesNext := by
  intro s t S S' hS hin hnext hS' hcount
  have hpos : 0 < count S s.mode := Nat.zero_lt_of_lt hin
  obtain rfl := Host.Outcome.next.inj ((nextStepsForwardModuloCount s S _ hS rfl hpos).symm.trans hnext)
  exact ⟨_, prevStepsBackModuloCount _ S' _ hS' hcount hpos, stepBack_stepForward hin, rfl⟩

/-! ## Empty lists (R167) -/

theorem emptyCase_recover {m : Mode} {flip : Bool} {s : State} (hp : s.params.emptyPolicy = .recover) :
    emptyCase m flip s = done (emit (.evt (.empty m)) (setIndex 0 (if flip then setMode m s else s))) := by
  rcases emptyCase_cases m flip s with ⟨hf, -⟩ | ⟨-, he⟩
  · cases hp.symm.trans hf
  · exact he

theorem emptyCase_fault {m : Mode} {flip : Bool} {s : State} (hp : s.params.emptyPolicy = .fault) :
    emptyCase m flip s = fatal .empty s := by
  rcases emptyCase_cases m flip s with ⟨-, he⟩ | ⟨hr, -⟩
  · exact he
  · cases hp.symm.trans hr

namespace Transition

variable {i : Instr} {flip : Bool} {op : Snapshot → State → Flow} {s : State} {S : Snapshot}

theorem op_of_empty (h : Transition i flip op) (h0 : count S (modeAfter flip s.mode) = 0) :
    op S s = emptyCase (modeAfter flip s.mode) flip s := by
  cases h with
  | toggle => exact if_pos h0
  | next => exact if_pos h0
  | prev => exact if_pos h0

theorem exec_recover (h : Transition i flip op) (hS : HostGives s (.snap S))
    (hp : s.params.emptyPolicy = .recover) (h0 : count S (modeAfter flip s.mode) = 0) :
    exec i s = .next { s with
      answers := s.answers.tail, queries := s.queries + 1,
      mode := modeAfter flip s.mode, index := 0, out := s.out ++ [.evt (.empty (modeAfter flip s.mode))] } := by
  rw [h.exec_snap hS, h.op_of_empty (s := afterQuery s) h0, emptyCase_recover (s := afterQuery s) hp]
  cases flip with
  | true => rfl
  | false => rfl

theorem exec_fault (h : Transition i flip op) (hS : HostGives s (.snap S))
    (hp : s.params.emptyPolicy = .fault) (h0 : count S (modeAfter flip s.mode) = 0) :
    exec i s = .next (fatal .empty (afterQuery s)).state := by
  rw [h.exec_snap hS, h.op_of_empty (s := afterQuery s) h0, emptyCase_fault (s := afterQuery s) hp]

end Transition

/-- Settles O39: NEXT and PREV need the list of MODE, TOGGLE that of the other mode. -/
theorem transitionRecoversFromAnEmptyList : Obligations.TransitionRecoversFromAnEmptyList := by
  intro s S hS hp
  refine ⟨fun h0 i hi => ?_, fun m2 hne h0 => ?_⟩
  · obtain ⟨op, htr⟩ := exists_transition_of_keeps_mode hi
    exact htr.exec_recover hS hp h0
  · obtain rfl := eq_other_of_ne hne
    exact Transition.toggle.exec_recover hS hp h0

/-- Settles O40: the raise comes before any write. -/
theorem transitionHaltsOnAnEmptyList : Obligations.TransitionHaltsOnAnEmptyList := by
  rintro s S i hS hp (⟨h0, hi⟩ | ⟨rfl, m2, hne, h0⟩)
  · obtain ⟨op, htr⟩ := exists_transition_of_keeps_mode hi
    exact htr.exec_fault hS hp h0
  · obtain rfl := eq_other_of_ne hne
    exact Transition.toggle.exec_fault hS hp h0

/-! ## INDEX after a transition (R169) -/

/-- INDEX is inside the snapshot's list of MODE, or 0 where that list is empty. -/
def IndexInside (S : Snapshot) (s : State) : Prop :=
  (0 < count S s.mode → s.index < count S s.mode) ∧ (count S s.mode = 0 → s.index = 0)

theorem indexInside_of_lt {S : Snapshot} {s : State} (h : s.index < count S s.mode) : IndexInside S s :=
  ⟨fun _ => h, fun h0 => absurd h0 (Nat.ne_zero_of_lt h)⟩

theorem indexInside_of_zero {S : Snapshot} {s : State} (h : s.index = 0) : IndexInside S s :=
  ⟨fun hpos => by rwa [h], fun _ => h⟩

/-- The clamp of TOGGLE ends inside a list with entries (R163). -/
theorem clamped_lt {j cnt : Nat} (hpos : 0 < cnt) : (if cnt ≤ j then cnt - 1 else j) < cnt := by
  split
  · exact Nat.sub_one_lt hpos.ne'
  · next hlt => exact Nat.lt_of_not_ge hlt

/-- The empty case raises, or leaves INDEX 0. -/
theorem emptyCase_raises_or_inside (m : Mode) (flip : Bool) (S : Snapshot) (s : State) :
    (∃ cause, emptyCase m flip s = fatal cause s) ∨ ∃ t, emptyCase m flip s = done t ∧ IndexInside S t := by
  rcases emptyCase_cases m flip s with ⟨-, he⟩ | ⟨-, he⟩
  · exact .inl ⟨_, he⟩
  · exact .inr ⟨_, he, indexInside_of_zero rfl⟩

/-- Past its query a transition raises, or leaves INDEX inside the list of the mode it ends in. -/
theorem Transition.raises_or_inside {i : Instr} {flip : Bool} {op : Snapshot → State → Flow}
    (h : Transition i flip op) (S : Snapshot) (s : State) :
    (∃ cause, op S s = fatal cause s) ∨ ∃ t, op S s = done t ∧ IndexInside S t := by
  rcases Nat.eq_zero_or_pos (count S (modeAfter flip s.mode)) with h0 | hpos
  · rw [h.op_of_empty h0]
    exact emptyCase_raises_or_inside _ _ S s
  · refine .inr ?_
    cases h with
    | toggle => exact ⟨_, toggleWith_of_pos hpos, indexInside_of_lt (clamped_lt hpos)⟩
    | next => exact ⟨_, nextWith_of_pos hpos, indexInside_of_lt (Nat.mod_lt _ hpos)⟩
    | prev => exact ⟨_, prevWith_of_pos hpos, indexInside_of_lt (Nat.mod_lt _ hpos)⟩

/-- Settles O43: a block that runs on has not raised. -/
theorem indexIsInsideTheListAfterATransition : Obligations.IndexIsInsideTheListAfterATransition := by
  intro s t S i _ hS hi hexec hrun
  obtain ⟨flip, op, htr⟩ := exists_transition hi
  obtain rfl := Host.Outcome.next.inj ((htr.exec_snap hS).symm.trans hexec)
  rcases htr.raises_or_inside S (afterQuery s) with ⟨cause, he⟩ | ⟨t, he, hinside⟩
  · simp [he] at hrun
  · rw [he]
    exact hinside

/-! ## BTN_OTHER (R161) -/

/-- Settles O42: the operation returns at once. -/
theorem btnOtherHasNoEffect : Obligations.BtnOtherHasNoEffect := by
  intro s c
  rw [exec, execBtnOther, btnOtherOp, finish_ok, done_state]

end Sys2Proof.Proofs
end

section
/-! PROOFS. The family 60_exceptions.md: what a frame's instruction that halts the block has done (O47), the halted state
(O11), the fatal entry (O46) and the numbers of the items (O57). The idea for O47: every operation on a snapshot either
raises EMPTY before it writes anything or leaves HALT alone, and the query in front of it can only raise BACKEND; so a
halted block is the fatal entry's own state, entered right after the query. -/

namespace Sys2Proof.Proofs

open Sys2Proof Machine Config Safety Laws

/-! ## Where an operation on a snapshot can halt the block (R203) -/

/-- The operation raises EMPTY from the state it was given, or leaves HALT as it was. -/
def RaisesEmptyOrKeepsHalt (op : Snapshot → State → Flow) : Prop :=
  ∀ S s, op S s = fatal .empty s ∨ (op S s).state.halt = s.halt

theorem sensorWith_raisesEmptyOrKeepsHalt (p : Half) : RaisesEmptyOrKeepsHalt (sensorWith p) := by
  intro S s
  rcases sensorWith_cases p S s with ⟨-, -, he⟩ | ⟨-, -, he⟩ | ⟨-, j, cur, d, -, -, -, ⟨-, he⟩ | ⟨-, he⟩⟩
  · exact .inl he
  · exact .inr (by rw [he, done_state, emit_halt])
  · exact .inr (by rw [he, done_state, emit_halt])
  · exact .inr (by rw [he, done_state, emit_halt])

theorem emptyCase_raises_or_keeps_halt (m : Mode) (flip : Bool) (s : State) :
    emptyCase m flip s = fatal .empty s ∨ (emptyCase m flip s).state.halt = s.halt := by
  rcases emptyCase_cases m flip s with ⟨-, he⟩ | ⟨-, he⟩
  · exact .inl he
  · refine .inr ?_
    rw [he]
    cases flip with
    | true => rfl
    | false => rfl

theorem Transition.raisesEmptyOrKeepsHalt {i : Instr} {flip : Bool} {op : Snapshot → State → Flow}
    (h : Transition i flip op) : RaisesEmptyOrKeepsHalt op := by
  intro S s
  rcases Nat.eq_zero_or_pos (count S (modeAfter flip s.mode)) with h0 | hpos
  · rw [h.op_of_empty h0]
    exact emptyCase_raises_or_keeps_halt _ _ s
  · refine .inr ?_
    cases h with
    | toggle => rw [toggleWith_of_pos hpos]; rfl
    | next => rw [nextWith_of_pos hpos]; rfl
    | prev => rw [prevWith_of_pos hpos]; rfl

/-! ## A frame's instruction that halts the block (R210) -/

/-- A frame's instruction makes one query for such an operation (R133, R162), or has no effect (R78, R161). -/
theorem exec_frame_cases {i : Instr} (hi : i.isFrame = true) :
    (∃ op, RaisesEmptyOrKeepsHalt op ∧ ∀ s, exec i s = finish (withSnapshot op s)) ∨ ∀ s, exec i s = .next s := by
  cases i with
  | byte b => cases hi
  | endByte => cases hi
  | sensor p => exact .inl ⟨_, sensorWith_raisesEmptyOrKeepsHalt p, fun _ => rfl⟩
  | next => exact .inl ⟨_, Transition.next.raisesEmptyOrKeepsHalt, Transition.next.exec_eq⟩
  | toggle => exact .inl ⟨_, Transition.toggle.raisesEmptyOrKeepsHalt, Transition.toggle.exec_eq⟩
  | prev => exact .inl ⟨_, Transition.prev.raisesEmptyOrKeepsHalt, Transition.prev.exec_eq⟩
  | btnOther c => exact .inr fun s => btnOtherHasNoEffect s c
  | kindOther k p => exact .inr fun s => kindOtherHasNoEffect s k p

/-- Where the query and its operation halt a running block, they went straight from the query to the fatal entry. -/
theorem withSnapshot_halts {op : Snapshot → State → Flow} {s t : State} (hop : RaisesEmptyOrKeepsHalt op)
    (hrun : s.halt = false) (h : finish (withSnapshot op s) = .next t) (hhalt : t.halt = true) :
    ∃ cause, (cause = .backend ∨ cause = .empty) ∧ t = (fatal cause (afterQuery s)).state := by
  obtain ⟨f, hf, rfl⟩ := finish_next h
  rcases withSnapshot_cases op s with he | he | ⟨S, -, -, he⟩
  · cases he.symm.trans hf
  · obtain rfl := Except.ok.inj (he.symm.trans hf)
    exact ⟨.backend, .inl rfl, rfl⟩
  · obtain rfl := Except.ok.inj (he.symm.trans hf)
    rcases hop S (afterQuery s) with hraise | hkeep
    · exact ⟨.empty, .inr rfl, by rw [hraise]⟩
    · simp [hkeep, hrun] at hhalt

/-- Settles O47: the only frames that halt are those that query, and the fatal entry follows the query at once. -/
theorem fatalErrorsArePrecise : Obligations.FatalErrorsArePrecise := by
  intro s t i hi hrun hexec hhalt
  rcases exec_frame_cases hi with ⟨op, hop, heq⟩ | hnone
  · obtain ⟨cause, hcause, rfl⟩ := withSnapshot_halts hop hrun ((heq s).symm.trans hexec) hhalt
    exact ⟨hcause, rfl⟩
  · obtain rfl := Host.Outcome.next.inj ((hnone s).symm.trans hexec)
    simp [hrun] at hhalt

/-! ## The halted state, the fatal entry and the items (R206, R207, R214) -/

/-- Settles O11: of the four cases of IN only Reset has a step. -/
theorem haltedBlockHasNoStep : Obligations.HaltedBlockHasNoStep :=
  fun _ hhalt hne => step_halted hhalt hne

/-- Settles O46: the entry is two register writes and one emission. -/
theorem fatalEntrySavesOnlyTheCause : Obligations.FatalEntrySavesOnlyTheCause := by
  intro cause s
  rw [fatal, emit]

/-- Settles O57: each item's code is its line of the table, whatever its operands. -/
theorem itemsAreNumberedAsTheSpecSays : Obligations.ItemsAreNumberedAsTheSpecSays :=
  ⟨fun _ _ _ => rfl, fun _ => rfl, fun _ => rfl, fun _ _ => rfl, fun _ _ => rfl, fun _ _ => rfl⟩

end Sys2Proof.Proofs
end

section
/-! PROOFS. The family 70_reset_and_hazards.md: what Reset writes (O10) and the invariant of the state after reset (O55). The
idea: power-on is a state that `DoReset()` gives (R230), and under legal parameters what DoReset leaves has the invariant
whatever the registers held before. -/

namespace Sys2Proof.Proofs

open Sys2Proof Machine Config Safety Laws

/-- R230: the state at power-on is one that `DoReset()` leaves as it is. -/
theorem doReset_powerOn : doReset State.reset = State.reset := rfl

/-- R5, R7: the default parameters are a realization of the block. -/
theorem default_params_legal : Params.default.legal = true := by decide

/-- The invariant asks nothing of the registers before a reset: an empty BUF holds no window, and 0 fits any INDEX. -/
theorem doReset_inv {s : State} (hlegal : s.params.legal = true) : Inv (doReset s) where
  params_legal := hlegal
  buf_fits := wf_nil s.params
  index_fits := Nat.two_pow_pos s.params.wIdx
  halt_cause := by simp
  empty_cause := by simp
  no_recognized := noRecognized_nil

/-- Settles O10: the step is DoReset with the event taken, and power-on has DoReset's values. -/
theorem resetWritesEveryRegister : Obligations.ResetWritesEveryRegister := by
  refine ⟨fun s rest hev => ?_, ?_⟩
  · rw [step_reset hev, doReset, offer]
  · rw [← doReset_powerOn]
    exact ⟨doReset_buf _, doReset_mode _, doReset_index _, doReset_halt _, doReset_haltCause _⟩

/-- Settles O55: power-on is DoReset's state under the default parameters. -/
theorem resetHasTheInvariant : Obligations.ResetHasTheInvariant := by
  rw [Obligations.ResetHasTheInvariant, ← doReset_powerOn]
  exact doReset_inv default_params_legal

end Sys2Proof.Proofs
end

section
/-! PROOFS. The family of the claims that no single chapter holds: the words written out of section 5 (O6). The idea: each
word is the encoding of a well-formed instruction, so the round trip (O1) reads it back as that instruction. -/

namespace Sys2Proof.Proofs

open Sys2Proof

/-- A word is read as the well-formed instruction that it encodes. -/
theorem decode_of_encode_eq {i : Instr} {word : List Byte} (hword : encode i = word) (hwf : i.wellFormed = true) :
    decode word = .ok i :=
  hword ▸ decodeInvertsEncode i hwf

/-- Settles O6: row by row, the word is the instruction's encoding and the instruction is well formed. -/
theorem writtenOutWordsDecode : Obligations.WrittenOutWordsDecode := by
  refine ⟨?byte, ?endByte, ?sensor, ?next, ?toggle, ?prev, ?btnOther, ?kindOther⟩ <;>
    exact decode_of_encode_eq rfl rfl

end Sys2Proof.Proofs
end
